-- ==== Sys2Proof/Word.lean ====
section
/-! DEFINITION. The word types of the block (spec/00_scope.md R9: "All values in this spec are unsigned"). -/

namespace Sys2Proof

/-- A word of the block: 32 bits (R9). -/
abbrev Word := BitVec 32

/-- A byte of a stream, of the block buffer or of a digest (R11). -/
abbrev Byte := BitVec 8

/-- A value of the two 64-bit counters L and CYCNT (R8, R10). -/
abbrev Count := BitVec 64

/-- A register offset inside the 128-byte window: 0x00 to 0x7F (R46). -/
abbrev Offset := BitVec 7

/-- The index j of a register array DIGEST0..7 or KEY0..7: 0 to 7 (R68, R72). -/
abbrev Index := BitVec 3

end Sys2Proof
end

