-- ==== Sys2Proof/Syntax.lean ====
section
/-! DEFINITION. What a host issues (accesses) and what an access can be (the operations of spec/opcode_table.json),
with the names of the error codes. -/

namespace Sys2Proof

/-- The direction of an access (spec/20_memory.md R45). -/
inductive Dir where
  | read
  | write
  deriving DecidableEq, Repr

/-- One host access `(dir, off, size, wdata)` as it is issued, legal or not (spec/20_memory.md R45). The data word means
something in a WRITE only. -/
structure Access where
  dir   : Dir
  off   : Offset
  size  : Nat
  wdata : Word
  deriving DecidableEq, Repr

/-- The error codes of spec/60_exceptions.md R143. Codes 5 to 15 are "never produced by this block". -/
inductive Err where
  | none
  | bus
  | cmd
  | seq
  | noDigest
  deriving DecidableEq, Repr

/-- The operations of the block: one constructor for each row of spec/opcode_table.json (spec/30_encoding.md R67, R70,
R71). Every term is well formed: an index has 3 bits (R68), the byte count of a data write is its constructor, and every
data word is legal (R73). -/
inductive Instr where
  | nop
  | shaInit
  | shaFinal
  | keyLoad
  | cyStart
  | abort
  | clrErr
  | rdId
  | rdStatus
  | rdDout
  | rdCycntLo
  | rdCycntHi
  | rdMlenLo
  | rdMlenHi
  | rdDigest (j : Index)
  | rdKey (j : Index)
  | wrKey (j : Index) (w : Word)
  | wrDin1 (w : Word)
  | wrDin2 (w : Word)
  | wrDin3 (w : Word)
  | wrDin4 (w : Word)
  deriving DecidableEq, Repr

end Sys2Proof
end

