-- ==== Sys2Proof/Machine/State.lean ====
section
/-! DEFINITION. The architectural state of the block (spec/10_state.md R20 to R44), the model's own fields for what lies
outside the block, the reasons a step can stop, and the state after reset. -/

namespace Sys2Proof.Machine

/-- Which function the block is performing (spec/10_state.md R22): all four values of the 2-bit field. -/
inductive Mode where
  /-- No operation in progress; data writes are errors. -/
  | idle
  /-- A message is being absorbed. -/
  | sha
  /-- A cypher stream is in progress. -/
  | cy
  /-- A cypher stream ended with a short final word; data writes are errors. -/
  | cyEnd
  deriving DecidableEq, Repr

/-- What comes to the block from outside, one after another. -/
inductive Event where
  /-- An access issued by the host (spec/20_memory.md R45). -/
  | access (a : Access)
  /-- The platform asserts and releases the block's one reset (spec/70_reset_and_hazards.md R163). -/
  | reset
  deriving DecidableEq, Repr

/-- The reasons the machine stops with a fault: none. "No access ends the block's operation for good" (spec/60_exceptions.md
R161); an error of R143 is recorded in ERR and the block goes on (R146). Safe and unsafe do not arise
(notes/assumptions/18.md). -/
inductive Fault where
  deriving DecidableEq, Repr

/-- The reasons a step is refused. No meaning of this model refuses: "no access has an outcome the spec does not name"
(spec/60_exceptions.md R161; notes/assumptions/18.md). -/
inductive Refusal where
  /-- An instruction without a meaning, named by its mnemonic. Only an arm of `exec` could raise it, and none does. Safe. -/
  | notModelled (mnemonic : String)
  deriving DecidableEq, Repr

/-- The state of the block: first every element of spec/10_state.md R22 to R37, then four fields of the model's own. -/
structure State where
  /-- MODE, 2 bits (R22). -/
  mode      : Mode
  /-- BUSY, 1 bit (R23). -/
  busy      : Bool
  /-- H[0..7], the running hash state, hidden (R24). -/
  hash      : Vector Word 8
  /-- BLK[0..63], the block buffer, hidden (R25). -/
  blk       : Vector Byte 64
  /-- BLEN, the number of message bytes held in BLK, 0 to 63 (R26). -/
  blen      : BitVec 6
  /-- L, the message length in bits, read as MLEN_LO and MLEN_HI (R27). -/
  mlen      : Count
  /-- DIGEST[0..7] (R29, R33). -/
  digest    : Vector Word 8
  /-- DVALID, 1 bit (R31). -/
  dvalid    : Bool
  /-- KEY[0..7] (R34). -/
  key       : Vector Word 8
  /-- KIDX, the rotating keystream index, 0 to 7 (R32). -/
  kidx      : BitVec 3
  /-- CYCNT, the bytes XORed since the last CY_START (R35). -/
  cycnt     : Count
  /-- DOUT, the output holding register (R36). -/
  dout      : Word
  /-- DOUT_LEN, how many bytes of DOUT are valid, 0 to 4 (R36). -/
  doutLen   : BitVec 3
  /-- DOUT_VALID, 1 bit (R36). -/
  doutValid : Bool
  /-- OVR, 1 bit, sticky (R36). -/
  ovr       : Bool
  /-- ERR, the first error since reset or the last CLR_ERR (R37, R143). -/
  err       : Err
  /-- The MODEL's own field: the events from outside that the block has not taken, the next one first
  (notes/assumptions/6.md). -/
  queue     : List Event
  /-- The MODEL's own field: the words READs have returned to the host, the newest first (R45; notes/assumptions/9.md). -/
  replies   : List Word
  /-- The MODEL's own field: how many errors have been raised, "a field that no step clears" (R162;
  notes/assumptions/10.md). -/
  raised    : Nat
  /-- The MODEL's own field: how many free values have been taken (notes/assumptions/5.md). -/
  draws     : Nat
  deriving DecidableEq, Repr

/-- The machine right after reset (spec/10_state.md R41, spec/70_reset_and_hazards.md R163). H and BLK are unspecified by the
spec (R42): DESIGN CHOICE, unsafe, all zero (notes/assumptions/1.md, notes/assumptions/2.md). No event waits and nothing has
been returned, raised or drawn: DESIGN CHOICE (notes/assumptions/5.md, 6, 9, 10). -/
def State.reset : State where
  mode := .idle
  busy := false
  hash := Vector.replicate 8 0
  blk := Vector.replicate 64 0
  blen := 0
  mlen := 0
  digest := Vector.replicate 8 0
  dvalid := false
  key := Vector.replicate 8 0
  kidx := 0
  cycnt := 0
  dout := 0
  doutLen := 0
  doutValid := false
  ovr := false
  err := .none
  queue := []
  replies := []
  raised := 0
  draws := 0

/-- The outcome of a step or of an instruction. -/
abbrev Result := Host.Outcome State Fault Refusal

end Sys2Proof.Machine
end

