-- ==== Sys2Proof/Machine/Flags.lean ====
section
/-! DEFINITION. The STATUS word and the codes of its fields (spec/10_state.md R38). -/

namespace Sys2Proof.Machine

/-- The value of STATUS.MODE (spec/10_state.md R22). -/
def modeBits : Mode → BitVec 2
  | .idle => 0
  | .sha => 1
  | .cy => 2
  | .cyEnd => 3

/-- The value of STATUS.ERR (spec/60_exceptions.md R143). -/
def errBits : Err → BitVec 4
  | .none => 0
  | .bus => 1
  | .cmd => 2
  | .seq => 3
  | .noDigest => 4

/-- The STATUS word, from bit 31 down to bit 0; every reserved bit reads 0 (spec/10_state.md R38). -/
def statusWord (s : State) : Word :=
  0#4 ++ errBits s.err ++ 0#2 ++ s.blen ++ 0#1 ++ s.kidx ++ 0#1 ++ s.doutLen ++ 0#2 ++
    BitVec.ofBool s.ovr ++ BitVec.ofBool s.doutValid ++ BitVec.ofBool s.dvalid ++ BitVec.ofBool s.busy ++ modeBits s.mode

/-- The identity constant: "the ASCII bytes SHA2 in big-endian order" (spec/42_control.md R130). -/
def identity : Word := 0x53484132

end Sys2Proof.Machine
end

