-- ==== Sys2Proof/WellFormed.lean ====
section
/-! DEFINITION. Which accesses are legal, written from the map of spec/30_encoding.md R71 without the decoder. -/

namespace Sys2Proof

/-- The access code `dir*0x80 + off` (spec/30_encoding.md R68). -/
def Access.code (a : Access) : BitVec 8 :=
  (match a.dir with | .read => 0#1 | .write => 1#1) ++ a.off

/-- The access is a whole word (spec/20_memory.md R48). -/
def Access.sizeOk (a : Access) : Bool := a.size == 4

/-- The offset is a multiple of 4 (spec/20_memory.md R48). -/
def Access.aligned (a : Access) : Bool := a.off.toNat % 4 == 0

/-- The rows of the access map: the fixed bits of an access code and the mask that selects them
(spec/30_encoding.md R71; the array rows leave the three index bits free). -/
def accessMap : List (BitVec 8 × BitVec 8) :=
  [(0x00, 0xFF), (0x08, 0xFF), (0x20, 0xFF), (0x24, 0xFF), (0x28, 0xFF), (0x30, 0xFF), (0x34, 0xFF)] ++
  [(0x40, 0xE3), (0x60, 0xE3)] ++
  [(0x84, 0xFF), (0x90, 0xFF), (0x94, 0xFF), (0x98, 0xFF), (0x9C, 0xFF), (0xE0, 0xE3)]

/-- The access code is in the access map (spec/30_encoding.md R71, R75). -/
def Access.mapped (a : Access) : Bool := accessMap.any fun r => a.code &&& r.2 == r.1

/-- A command word is legal: RSV is 0 and OPC is 0x00 to 0x06 (spec/30_encoding.md R69, R70, R74). -/
def commandWordOk (w : Word) : Bool := w.toNat < 7

/-- A WRITE of CMD carries a legal command word; any other access has no such check (spec/60_exceptions.md R148). -/
def Access.commandOk (a : Access) : Bool := a.code != 0x84 || commandWordOk a.wdata

/-- An access that names an operation: every check of the form, the map and the command word holds
(spec/30_encoding.md R67, R79; spec/60_exceptions.md R148, checks 1 to 3). -/
def Access.wellFormed (a : Access) : Bool := a.sizeOk && a.aligned && a.mapped && a.commandOk

end Sys2Proof
end

