-- ==== Sys2Proof/Decode.lean ====
section
/-! DEFINITION. The decoder of spec/30_encoding.md R79, total on every access, the encoder written from the same tables
(R68 to R71), and the reading of the opcode table's own words. -/

namespace Sys2Proof

/-- Why an access names no operation (spec/60_exceptions.md R148, checks 1 to 3, in that order). -/
inductive Reject where
  /-- `size != 4` (spec/20_memory.md R49). -/
  | wrongSize
  /-- `off mod 4 != 0` (spec/20_memory.md R49). -/
  | misaligned
  /-- Offset 0x0C, 0x2C, 0x38 or 0x3C (spec/20_memory.md R50). -/
  | reservedOffset
  /-- A READ of CMD or DIN1..DIN4 (spec/20_memory.md R51). -/
  | readOfWriteOnly
  /-- A WRITE of a read-only register (spec/20_memory.md R52). -/
  | writeOfReadOnly
  /-- A command word with RSV != 0 (spec/30_encoding.md R70, item 1). -/
  | reservedBits
  /-- A command word with OPC in 0x07..0xFF (spec/30_encoding.md R70, item 3). -/
  | reservedOpcode
  deriving DecidableEq, Repr

/-- The error code each rejection raises (spec/60_exceptions.md R143, R148). -/
def Reject.err : Reject → Err
  | .wrongSize | .misaligned | .reservedOffset | .readOfWriteOnly | .writeOfReadOnly => .bus
  | .reservedBits | .reservedOpcode => .cmd

/-- What an access decodes to: "exactly one of: an operation of rule R71, ERR_BUS, or (for a command word) ERR_CMD"
(spec/30_encoding.md R79). -/
inductive Decoded where
  | op (i : Instr)
  | reject (r : Reject)
  deriving DecidableEq, Repr

/-- The index field `off[4:2]` (spec/30_encoding.md R68, R72). -/
def offIndex (off : Offset) : Index := off.extractLsb' 2 3

/-- The command map (spec/30_encoding.md R70). -/
def decodeCommand (w : Word) : Decoded :=
  if w.extractLsb' 8 24 ≠ 0#24 then .reject .reservedBits
  else match (w.extractLsb' 0 8).toNat with
    | 0x00 => .op .nop
    | 0x01 => .op .shaInit
    | 0x02 => .op .shaFinal
    | 0x03 => .op .keyLoad
    | 0x04 => .op .cyStart
    | 0x05 => .op .abort
    | 0x06 => .op .clrErr
    | _ => .reject .reservedOpcode

/-- The offsets the register map reserves (spec/20_memory.md R47, R50). -/
def reservedOffsets : List Offset := [0x0C, 0x2C, 0x38, 0x3C]

/-- The write-only registers CMD and DIN1..DIN4 (spec/20_memory.md R47, R51). -/
def writeOnlyOffsets : List Offset := [0x04, 0x10, 0x14, 0x18, 0x1C]

/-- The READ rows of the access map (spec/30_encoding.md R71), for an aligned offset: the last line is then never reached,
since the sixteen slots below 0x40 are all named above it. -/
def decodeRead (off : Offset) : Decoded :=
  if off ∈ reservedOffsets then .reject .reservedOffset
  else if off ∈ writeOnlyOffsets then .reject .readOfWriteOnly
  else if off.extractLsb' 5 2 = 0b10#2 then .op (.rdDigest (offIndex off))
  else if off.extractLsb' 5 2 = 0b11#2 then .op (.rdKey (offIndex off))
  else match off.toNat with
    | 0x00 => .op .rdId
    | 0x08 => .op .rdStatus
    | 0x20 => .op .rdDout
    | 0x24 => .op .rdCycntLo
    | 0x28 => .op .rdCycntHi
    | 0x30 => .op .rdMlenLo
    | 0x34 => .op .rdMlenHi
    | _ => .reject .misaligned

/-- The WRITE rows of the access map (spec/30_encoding.md R71), for an aligned offset. -/
def decodeWrite (off : Offset) (w : Word) : Decoded :=
  if off ∈ reservedOffsets then .reject .reservedOffset
  else if off.extractLsb' 5 2 = 0b11#2 then .op (.wrKey (offIndex off) w)
  else match off.toNat with
    | 0x04 => decodeCommand w
    | 0x10 => .op (.wrDin1 w)
    | 0x14 => .op (.wrDin2 w)
    | 0x18 => .op (.wrDin3 w)
    | 0x1C => .op (.wrDin4 w)
    | _ => .reject .writeOfReadOnly

/-- The decoder, with the checks in the order of spec/30_encoding.md R79: the form, then the map, then the command word. -/
def decode (a : Access) : Decoded :=
  if a.size ≠ 4 then .reject .wrongSize
  else if a.off.extractLsb' 0 2 ≠ 0#2 then .reject .misaligned
  else match a.dir with
    | .read => decodeRead a.off
    | .write => decodeWrite a.off a.wdata

/-- `BusWrite(off, 4, w)` (spec/00_scope.md R12). -/
def busWrite (off : Offset) (w : Word) : Access := { dir := .write, off := off, size := 4, wdata := w }

/-- `BusRead(off, 4)` (spec/00_scope.md R12). A READ carries no data word; the field is 0. -/
def busRead (off : Offset) : Access := { dir := .read, off := off, size := 4, wdata := 0 }

/-- The CMD write of an opcode: RSV = 0, OPC in bits 7:0 (spec/30_encoding.md R69). -/
def commandWrite (opc : Byte) : Access := busWrite 0x04 (0#24 ++ opc)

/-- The offset of word `j` of the register array whose offset bits 6:5 are `bank`: DIGESTj is bank 2, KEYj bank 3
(spec/20_memory.md R47, spec/30_encoding.md R68). -/
def arrayOffset (bank : BitVec 2) (j : Index) : Offset := bank ++ j ++ 0b00#2

/-- The access that an operation is (spec/30_encoding.md R67, R70, R71). -/
def encode : Instr → Access
  | .nop => commandWrite 0x00
  | .shaInit => commandWrite 0x01
  | .shaFinal => commandWrite 0x02
  | .keyLoad => commandWrite 0x03
  | .cyStart => commandWrite 0x04
  | .abort => commandWrite 0x05
  | .clrErr => commandWrite 0x06
  | .rdId => busRead 0x00
  | .rdStatus => busRead 0x08
  | .rdDout => busRead 0x20
  | .rdCycntLo => busRead 0x24
  | .rdCycntHi => busRead 0x28
  | .rdMlenLo => busRead 0x30
  | .rdMlenHi => busRead 0x34
  | .rdDigest j => busRead (arrayOffset 0b10#2 j)
  | .rdKey j => busRead (arrayOffset 0b11#2 j)
  | .wrKey j w => busWrite (arrayOffset 0b11#2 j) w
  | .wrDin1 w => busWrite 0x10 w
  | .wrDin2 w => busWrite 0x14 w
  | .wrDin3 w => busWrite 0x18 w
  | .wrDin4 w => busWrite 0x1C w

/-- The access has the code and the form of an operation's access; the data word of a READ is not compared, since a READ
carries none (spec/20_memory.md R45, spec/30_encoding.md R71). -/
def Access.sameOperation (a b : Access) : Bool :=
  a.size == b.size && a.dir == b.dir && a.off == b.off && (a.dir == .read || a.wdata == b.wdata)

/-- The access an opcode-table row stands for: a row of 32 bits is the word of a CMD write, a row of 8 bits is an access
code whose data word, which the table gives no bits, is 0 (spec/30_encoding.md R68, R69; notes/assumptions/8.md). -/
def tableAccess (nbits w : Nat) : Option Access :=
  if nbits = 32 ∧ w < 2 ^ 32 then some (busWrite 0x04 (BitVec.ofNat 32 w))
  else if nbits = 8 ∧ w < 2 ^ 7 then some (busRead (BitVec.ofNat 7 w))
  else if nbits = 8 ∧ w < 2 ^ 8 then some (busWrite (BitVec.ofNat 7 w) 0)
  else none

/-- The operation the decoder reads from the bits of an opcode-table row. -/
def decodeTableWord (nbits w : Nat) : Option Instr :=
  match tableAccess nbits w with
  | none => none
  | some a =>
    match decode a with
    | .op i => some i
    | .reject _ => none

end Sys2Proof
end

