-- ==== Sys2Proof/Config.lean ====
section
/-! DEFINITION. What the spec leaves open: the base address of the window and the free values. A constant here has no
body, so no proof can learn its value and a claim holds whatever it is. -/

namespace Sys2Proof

/-- ENGINE_BASE divided by 128. The spec leaves the base OPEN as "a multiple of 128" (spec/00_scope.md R8,
spec/20_memory.md R46; notes/assumptions/14.md). -/
opaque Config.enginePage : Nat

/-- ENGINE_BASE, the bus address of register offset 0x00 (R8, R46). -/
def Config.engineBase : Nat := 128 * Config.enginePage

/-- A free value: the 64 bytes of BLK after the SHA_FINAL, or the platform's reset, that takes draw `n`. "BLK[0..63]
unspecified afterwards, never read" (spec/40_sha256.md R99; spec/10_state.md R42; notes/assumptions/3.md, 2.md). -/
opaque Config.unspecifiedBlock (n : Nat) : Vector Byte 64

/-- A free value: the words of H after the platform's reset that takes draw `n`. "A model takes them as free draws"
(spec/10_state.md R42; notes/assumptions/1.md). -/
opaque Config.unspecifiedHash (n : Nat) : Vector Word 8

/-- A free value: whether the engine's step comes before the STATUS read that takes draw `n` in a busy period. "The number
of host steps that may pass before the engine takes its step is not bounded by this spec" (spec/20_memory.md R58;
notes/assumptions/4.md). -/
opaque Config.engineFirst (n : Nat) : Bool

end Sys2Proof
end

