-- ==== Sys2Proof/Machine/Operands.lean ====
section
/-! DEFINITION. Operand forms: the bytes of a data word, byte masks, byte sequences and words, indexed words, the halves of a
counter, and the place of the window on the bus. -/

namespace Sys2Proof.Machine

/-- Byte `k` of a data word in stream order: bits `31-8k .. 24-8k` (spec/20_memory.md R54, R55). -/
def streamByte (w : Word) (k : Nat) : Byte := w.extractLsb' (24 - 8 * k) 8

/-- The `n` bytes that a write of `w` to DINn carries, the first byte first; the bytes beyond `n` are ignored
(spec/20_memory.md R54, spec/30_encoding.md R73). -/
def streamBytes (n : Nat) (w : Word) : List Byte := (List.range n).map (streamByte w)

/-- MASK(n): the top `n` bytes are 0xFF and the others 0 (spec/41_cypher.md R119). -/
def mask (n : Nat) : Word := ~~~(BitVec.allOnes 32 >>> (8 * n))

/-- `be32(w)` (spec/00_scope.md R11). -/
def be32 (w : Word) : List Byte := streamBytes 4 w

/-- `be64(d)`, the most significant byte first (spec/00_scope.md R11). -/
def be64 (d : Count) : List Byte := (List.range 8).map fun k => d.extractLsb' (56 - 8 * k) 8

/-- `word_be(S, i)`, big-endian assembly (spec/00_scope.md R11). The rules use it only with `i + 3 < |S|`. -/
def wordBe (bytes : List Byte) (i : Nat) : Word :=
  bytes.getD i 0 ++ bytes.getD (i + 1) 0 ++ bytes.getD (i + 2) 0 ++ bytes.getD (i + 3) 0

/-- Word `j` of a register array. -/
def wordAt (v : Vector Word 8) (j : Index) : Word := v[j.toNat]'j.isLt

/-- A register array with word `j` replaced. -/
def setWordAt (v : Vector Word 8) (j : Index) (w : Word) : Vector Word 8 := v.set j.toNat w j.isLt

/-- Bits 31:0 of a counter (spec/10_state.md R27, R35). -/
def lowHalf (c : Count) : Word := c.extractLsb' 0 32

/-- Bits 63:32 of a counter (spec/10_state.md R27, R35). -/
def highHalf (c : Count) : Word := c.extractLsb' 32 32

/-- The byte view of the digest: byte `k` is `be32(DIGEST[k div 4])[k mod 4]` (spec/10_state.md R30). The rule is for
`k < 32`; the index wraps beyond it, as the keystream does (spec/41_cypher.md R121). -/
def wordsByte (v : Vector Word 8) (k : Nat) : Byte := streamByte (wordAt v (BitVec.ofNat 3 (k / 4))) (k % 4)

/-- The bus address of a register offset (spec/20_memory.md R46, spec/42_control.md R181). -/
def busAddress (off : Offset) : Nat := Config.engineBase + off.toNat

/-- The offset a bus address selects, if it lies in the window: "Bus addresses outside the window do not reach the block"
(spec/20_memory.md R46). -/
def windowOffset (addr : Nat) : Option Offset :=
  if Config.engineBase ≤ addr ∧ addr < Config.engineBase + 128 then some (BitVec.ofNat 7 (addr - Config.engineBase))
  else none

end Sys2Proof.Machine
end

