-- ==== Sys2Proof/Machine/Ops.lean ====
section
/-! DEFINITION. The shared operations: returning a word to the host, raising an error and clearing the record, the engine's
step, the platform's reset, and which agent moves next. -/

namespace Sys2Proof.Machine

/-- A READ returns one word to the host (spec/20_memory.md R45; notes/assumptions/9.md). -/
def State.reply (v : Word) (s : State) : State := { s with replies := v :: s.replies }

/-- `raise ERR_x`: the first error is kept, later ones are not recorded, and nothing else of the block changes
(spec/60_exceptions.md R146, R147). The model also counts it (R162; notes/assumptions/10.md). This is the block's only
exception entry: it takes no traps (R151). -/
def State.raise (e : Err) (s : State) : State :=
  { s with err := if s.err = .none then e else s.err, raised := s.raised + 1 }

/-- The end of an error episode: ERR and OVR become 0; "it restores nothing because nothing was saved"
(spec/60_exceptions.md R152, spec/42_control.md R138). -/
def State.clearErrors (s : State) : State := { s with err := .none, ovr := false }

/-- An access that names no operation: its error is raised, and a READ returns 0x00000000 (spec/30_encoding.md R75,
spec/60_exceptions.md R146). -/
def State.suppress (d : Dir) (e : Err) (s : State) : State :=
  match d with
  | .read => (s.raise e).reply 0
  | .write => s.raise e

/-- The engine's one step, `BUSY <- 0`; "it changes nothing else" (spec/20_memory.md R58). -/
def State.endBusy (s : State) : State := { s with busy := false }

/-- The platform's reset: every element of the block holds its value after reset (spec/70_reset_and_hazards.md R163), H and
BLK a free draw (spec/10_state.md R42; notes/assumptions/1.md, 2.md). What is outside the block stays: the events to come, the
words already returned, the count of errors (notes/assumptions/13.md). -/
def State.platformReset (s : State) : State :=
  { State.reset with
    hash := Config.unspecifiedHash s.draws, blk := Config.unspecifiedBlock s.draws,
    queue := s.queue, replies := s.replies, raised := s.raised, draws := s.draws + 1 }

/-- One free value has been taken (notes/assumptions/5.md). -/
def State.drawn (s : State) : State := { s with draws := s.draws + 1 }

/-- A host that has one event fewer to come. -/
def State.setQueue (q : List Event) (s : State) : State := { s with queue := q }

/-- A legal READ of STATUS, the one access that is never held (spec/20_memory.md R59). -/
def isStatusRead (a : Access) : Bool := decode a == .op .rdStatus

/-- Whose turn it is: the step is already made (`moved`), or an access is to be performed in the given state. -/
inductive Turn where
  | moved (t : State)
  | perform (a : Access) (t : State)
  deriving DecidableEq, Repr

/-- Which agent moves (spec/20_memory.md R58, R59, R61; spec/70_reset_and_hazards.md R163).
A reset is never held. An access is performed when BUSY = 0. While BUSY = 1 the engine's step comes before every access but a
legal READ of STATUS; whether it comes before that one is a free value (notes/assumptions/4.md). With nothing to take, the
engine ends a busy period, and otherwise the block waits for host accesses (spec/70_reset_and_hazards.md R165;
notes/assumptions/12.md). -/
def arbitrate (s : State) : Turn :=
  match s.queue with
  | [] => .moved s.endBusy
  | .reset :: rest => .moved (s.setQueue rest).platformReset
  | .access a :: rest =>
    if s.busy = false then .perform a (s.setQueue rest)
    else if isStatusRead a = false then .moved s.endBusy
    else if Config.engineFirst s.draws then .moved s.endBusy.drawn
    else .perform a (s.setQueue rest).drawn

/-- The state in which the next step takes access `a`: no busy period holds it, and it is the host's next event
(notes/assumptions/7.md). -/
def State.issue (a : Access) (s : State) : State := { s with busy := false, queue := .access a :: s.queue }

end Sys2Proof.Machine
end

