-- ==== Sys2Proof/Machine/Control.lean ====
section
/-! DEFINITION. The control and readout family: the reads of the registers that report state, NOP, ABORT and CLR_ERR
(spec/42_control.md). -/

namespace Sys2Proof.Machine

/-- READ ID (spec/42_control.md R130). -/
def execRdId (s : State) : Result := .next (s.reply identity)

/-- READ STATUS (spec/42_control.md R131). -/
def execRdStatus (s : State) : Result := .next (s.reply (statusWord s))

/-- READ CYCNT_LO (spec/42_control.md R132). -/
def execRdCycntLo (s : State) : Result := .next (s.reply (lowHalf s.cycnt))

/-- READ CYCNT_HI (spec/42_control.md R132). -/
def execRdCycntHi (s : State) : Result := .next (s.reply (highHalf s.cycnt))

/-- READ MLEN_LO (spec/42_control.md R133). -/
def execRdMlenLo (s : State) : Result := .next (s.reply (lowHalf s.mlen))

/-- READ MLEN_HI (spec/42_control.md R133). -/
def execRdMlenHi (s : State) : Result := .next (s.reply (highHalf s.mlen))

/-- READ DIGESTj, whatever DVALID is (spec/42_control.md R134). -/
def execRdDigest (j : Index) (s : State) : Result := .next (s.reply (wordAt s.digest j))

/-- NOP (spec/42_control.md R136). -/
def execNop (s : State) : Result := .next s

/-- ABORT (spec/42_control.md R137). -/
def execAbort (s : State) : Result := .next { s with mode := .idle, blen := 0 }

/-- CLR_ERR (spec/42_control.md R138). -/
def execClrErr (s : State) : Result := .next s.clearErrors

end Sys2Proof.Machine
end

