-- ==== Sys2Proof/Machine/Cypher.lean ====
section
/-! DEFINITION. The keystream cypher family: the key registers, KEY_LOAD, CY_START, the XOR of one word, the DOUT read
(spec/41_cypher.md). -/

namespace Sys2Proof.Machine

/-- READ KEYj (spec/41_cypher.md R113). -/
def execRdKey (j : Index) (s : State) : Result := .next (s.reply (wordAt s.key j))

/-- WRITE KEYj (spec/41_cypher.md R114). -/
def execWrKey (j : Index) (w : Word) (s : State) : Result := .next { s with key := setWordAt s.key j w }

/-- KEY_LOAD: the key is taken from the digest, or ERR_NODIGEST is raised (spec/41_cypher.md R116). -/
def execKeyLoad (s : State) : Result :=
  if s.dvalid then .next { s with key := s.digest } else .next (s.raise .noDigest)

/-- CY_START: a cypher stream begins at keystream offset 0 (spec/41_cypher.md R118). -/
def execCyStart (s : State) : Result :=
  .next { s with
    mode := .cy, kidx := 0, cycnt := 0, dout := 0, doutLen := 0, doutValid := false, blen := 0 }

/-- `CyXor(n, w)`: a DINn write in MODE = CY (spec/41_cypher.md R120, R123, R124). -/
def cyXor (n : Nat) (w : Word) (s : State) : State :=
  { s with
    ovr := s.ovr || s.doutValid
    dout := (w ^^^ wordAt s.key s.kidx) &&& mask n
    doutLen := BitVec.ofNat 3 n
    doutValid := true
    cycnt := s.cycnt + BitVec.ofNat 64 n
    kidx := if n = 4 then s.kidx + 1 else s.kidx
    mode := if n = 4 then s.mode else .cyEnd }

/-- READ DOUT: `return DOUT; DOUT_VALID <- 0` (spec/41_cypher.md R122). -/
def execRdDout (s : State) : Result := .next ({ s with doutValid := false }.reply s.dout)

end Sys2Proof.Machine
end

