-- ==== Sys2Proof/Machine/Compress.lean ====
section
/-! DEFINITION. The SHA-256 tables, functions, message schedule and compression (spec/40_sha256.md R83 to R93). -/

namespace Sys2Proof.Machine

/-- The round constants K[0..63], eight a line (spec/40_sha256.md R83). -/
def roundConstants : List Word :=
  [0x428a2f98, 0x71374491, 0xb5c0fbcf, 0xe9b5dba5, 0x3956c25b, 0x59f111f1, 0x923f82a4, 0xab1c5ed5] ++
  [0xd807aa98, 0x12835b01, 0x243185be, 0x550c7dc3, 0x72be5d74, 0x80deb1fe, 0x9bdc06a7, 0xc19bf174] ++
  [0xe49b69c1, 0xefbe4786, 0x0fc19dc6, 0x240ca1cc, 0x2de92c6f, 0x4a7484aa, 0x5cb0a9dc, 0x76f988da] ++
  [0x983e5152, 0xa831c66d, 0xb00327c8, 0xbf597fc7, 0xc6e00bf3, 0xd5a79147, 0x06ca6351, 0x14292967] ++
  [0x27b70a85, 0x2e1b2138, 0x4d2c6dfc, 0x53380d13, 0x650a7354, 0x766a0abb, 0x81c2c92e, 0x92722c85] ++
  [0xa2bfe8a1, 0xa81a664b, 0xc24b8b70, 0xc76c51a3, 0xd192e819, 0xd6990624, 0xf40e3585, 0x106aa070] ++
  [0x19a4c116, 0x1e376c08, 0x2748774c, 0x34b0bcb5, 0x391c0cb3, 0x4ed8aa4a, 0x5b9cca4f, 0x682e6ff3] ++
  [0x748f82ee, 0x78a5636f, 0x84c87814, 0x8cc70208, 0x90befffa, 0xa4506ceb, 0xbef9a3f7, 0xc67178f2]

/-- The initial vector IV[0..7] (spec/40_sha256.md R84). -/
def initialVector : Vector Word 8 :=
  #v[0x6a09e667, 0xbb67ae85, 0x3c6ef372, 0xa54ff53a, 0x510e527f, 0x9b05688c, 0x1f83d9ab, 0x5be0cd19]

/-- `SHR_n(x)` (spec/00_scope.md R10). -/
def shr (n : Nat) (x : Word) : Word := x >>> n

/-- `ROTR_n(x) = SHR_n(x) OR ((x << (32 - n)) mod 2^32)` for `0 < n < 32` (spec/00_scope.md R10). -/
def rotr (n : Nat) (x : Word) : Word := shr n x ||| x <<< (32 - n)

/-- Ch (spec/40_sha256.md R85). -/
def ch (x y z : Word) : Word := (x &&& y) ^^^ (~~~x &&& z)

/-- Maj (spec/40_sha256.md R86). -/
def maj (x y z : Word) : Word := (x &&& y) ^^^ (x &&& z) ^^^ (y &&& z)

/-- Sigma0 (spec/40_sha256.md R87). -/
def bigSigma0 (x : Word) : Word := rotr 2 x ^^^ rotr 13 x ^^^ rotr 22 x

/-- Sigma1 (spec/40_sha256.md R88). -/
def bigSigma1 (x : Word) : Word := rotr 6 x ^^^ rotr 11 x ^^^ rotr 25 x

/-- sigma0 (spec/40_sha256.md R89). -/
def smallSigma0 (x : Word) : Word := rotr 7 x ^^^ rotr 18 x ^^^ shr 3 x

/-- sigma1 (spec/40_sha256.md R90). -/
def smallSigma1 (x : Word) : Word := rotr 17 x ^^^ rotr 19 x ^^^ shr 10 x

/-- The next schedule word after `W[0..t-1]`, for `t >= 16`:
`sigma1(W[t-2]) + W[t-7] + sigma0(W[t-15]) + W[t-16]` (spec/40_sha256.md R91). -/
def nextScheduleWord (ws : List Word) : Word :=
  smallSigma1 (ws.getD (ws.length - 2) 0) + ws.getD (ws.length - 7) 0 +
    smallSigma0 (ws.getD (ws.length - 15) 0) + ws.getD (ws.length - 16) 0

/-- `n` more schedule words (spec/40_sha256.md R91). -/
def extendSchedule : Nat → List Word → List Word
  | 0, ws => ws
  | n + 1, ws => extendSchedule n (ws ++ [nextScheduleWord ws])

/-- The message schedule W[0..63] of a 64-byte block (spec/40_sha256.md R91). -/
def schedule (block : List Byte) : List Word :=
  extendSchedule 48 ((List.range 16).map fun t => wordBe block (4 * t))

/-- The working state `a .. h` of one compression; it is not architectural state (spec/10_state.md R28). -/
structure Working where
  a : Word
  b : Word
  c : Word
  d : Word
  e : Word
  f : Word
  g : Word
  h : Word
  deriving DecidableEq, Repr

/-- The working state a compression starts from (spec/40_sha256.md R92). -/
def startWorking (hs : Vector Word 8) : Working := ⟨hs[0], hs[1], hs[2], hs[3], hs[4], hs[5], hs[6], hs[7]⟩

/-- One round with constant `k` and schedule word `w` (spec/40_sha256.md R92). -/
def compressionRound (x : Working) (k w : Word) : Working :=
  let t1 := x.h + bigSigma1 x.e + ch x.e x.f x.g + k + w
  let t2 := bigSigma0 x.a + maj x.a x.b x.c
  ⟨t1 + t2, x.a, x.b, x.c, x.d + t1, x.e, x.f, x.g⟩

/-- The working state after the first `n` rounds (spec/40_sha256.md R92). -/
def workingAfter (n : Nat) (hs : Vector Word 8) (block : List Byte) : Working :=
  ((roundConstants.zip (schedule block)).take n).foldl (fun x p => compressionRound x p.1 p.2) (startWorking hs)

/-- `Compress(H, B)` (spec/40_sha256.md R92). -/
def compress (hs : Vector Word 8) (block : List Byte) : Vector Word 8 :=
  let x := workingAfter 64 hs block
  #v[hs[0] + x.a, hs[1] + x.b, hs[2] + x.c, hs[3] + x.d, hs[4] + x.e, hs[5] + x.f, hs[6] + x.g, hs[7] + x.h]

end Sys2Proof.Machine
end

