-- ==== Sys2Proof/Machine/Sha.lean ====
section
/-! DEFINITION. The SHA-256 engine family: SHA_INIT, the absorbing of message bytes, SHA_FINAL (spec/40_sha256.md). -/

namespace Sys2Proof.Machine

/-- `AbsorbByte(b)` (spec/40_sha256.md R95). A byte that completes the block compresses it at once; BUSY, which R96 sets at
the end of the access if a block was compressed, is set with it. -/
def absorbByte (b : Byte) (s : State) : State :=
  let blk' := s.blk.set s.blen.toNat b s.blen.isLt
  if s.blen = 63 then
    { s with blk := blk', blen := 0, mlen := s.mlen + 8, hash := compress s.hash blk'.toList, busy := true }
  else
    { s with blk := blk', blen := s.blen + 1, mlen := s.mlen + 8 }

/-- Message bytes absorbed one after another (spec/40_sha256.md R96). -/
def absorbBytes (bytes : List Byte) (s : State) : State := bytes.foldl (fun t b => absorbByte b t) s

/-- `ShaAbsorb(n, w)`: a DINn write in MODE = SHA (spec/40_sha256.md R96). -/
def shaAbsorb (n : Nat) (w : Word) (s : State) : State := absorbBytes (streamBytes n w) s

/-- `Pad(M, L)` (spec/40_sha256.md R98): 64 bytes, or 128 when the final chunk cannot hold the length field. -/
def pad (m : List Byte) (len : Count) : List Byte :=
  if m.length ≤ 55 then m ++ [0x80] ++ List.replicate (55 - m.length) 0 ++ be64 len
  else m ++ [0x80] ++ List.replicate (63 - m.length) 0 ++ List.replicate 56 0 ++ be64 len

/-- The hash state after the first `n` blocks of 64 bytes of a byte sequence, in order (spec/40_sha256.md R99). -/
def compressBlocks : Nat → Vector Word 8 → List Byte → Vector Word 8
  | 0, hs, _ => hs
  | n + 1, hs, bytes => compressBlocks n (compress hs (bytes.take 64)) (bytes.drop 64)

/-- The message bytes held: `BLK[0 .. BLEN-1]` (spec/40_sha256.md R98). -/
def State.held (s : State) : List Byte := s.blk.toList.take s.blen.toNat

/-- The hash state that SHA_FINAL publishes: every block of the padded final chunk compressed (spec/40_sha256.md R99). -/
def finalHash (s : State) : Vector Word 8 :=
  let p := pad s.held s.mlen
  compressBlocks (p.length / 64) s.hash p

/-- SHA_INIT (spec/40_sha256.md R94). -/
def execShaInit (s : State) : Result :=
  .next { s with hash := initialVector, blen := 0, mlen := 0, dvalid := false, mode := .sha }

/-- SHA_FINAL (spec/40_sha256.md R99). Outside MODE = SHA it raises ERR_SEQ (spec/30_encoding.md R77). BLK is "unspecified
afterwards": a free value (notes/assumptions/3.md). -/
def execShaFinal (s : State) : Result :=
  match s.mode with
  | .sha =>
    .next { s with
      hash := finalHash s, digest := finalHash s, dvalid := true, blen := 0, mode := .idle, busy := true,
      blk := Config.unspecifiedBlock s.draws, draws := s.draws + 1 }
  | .idle | .cy | .cyEnd => .next (s.raise .seq)

end Sys2Proof.Machine
end

