-- ==== Sys2Proof/Machine/DataWrite.lean ====
section
/-! DEFINITION. The data writes DIN1 to DIN4: their dispatch by MODE (spec/30_encoding.md R78). -/

namespace Sys2Proof.Machine

/-- A legal WRITE of `w` to DINn, by MODE (spec/30_encoding.md R78). -/
def dataWrite (n : Nat) (w : Word) (s : State) : State :=
  match s.mode with
  | .sha => shaAbsorb n w s
  | .cy => cyXor n w s
  | .idle | .cyEnd => s.raise .seq

/-- WRITE DIN1: one byte (spec/30_encoding.md R78). -/
def execWrDin1 (w : Word) (s : State) : Result := .next (dataWrite 1 w s)

/-- WRITE DIN2: two bytes (spec/30_encoding.md R78). -/
def execWrDin2 (w : Word) (s : State) : Result := .next (dataWrite 2 w s)

/-- WRITE DIN3: three bytes (spec/30_encoding.md R78). -/
def execWrDin3 (w : Word) (s : State) : Result := .next (dataWrite 3 w s)

/-- WRITE DIN4: four bytes (spec/30_encoding.md R78). -/
def execWrDin4 (w : Word) (s : State) : Result := .next (dataWrite 4 w s)

end Sys2Proof.Machine
end

