-- ==== Sys2Proof/Machine/Dispatch.lean ====
section
/-! DEFINITION. One arm for each operation of spec/opcode_table.json. -/

namespace Sys2Proof.Machine

def exec (i : Instr) (s : State) : Host.Outcome State Fault Refusal :=
  match i with
  | .nop => Sys2Proof.Machine.execNop s
  | .shaInit => Sys2Proof.Machine.execShaInit s
  | .shaFinal => Sys2Proof.Machine.execShaFinal s
  | .keyLoad => Sys2Proof.Machine.execKeyLoad s
  | .cyStart => Sys2Proof.Machine.execCyStart s
  | .abort => Sys2Proof.Machine.execAbort s
  | .clrErr => Sys2Proof.Machine.execClrErr s
  | .rdId => Sys2Proof.Machine.execRdId s
  | .rdStatus => Sys2Proof.Machine.execRdStatus s
  | .rdDout => Sys2Proof.Machine.execRdDout s
  | .rdCycntLo => Sys2Proof.Machine.execRdCycntLo s
  | .rdCycntHi => Sys2Proof.Machine.execRdCycntHi s
  | .rdMlenLo => Sys2Proof.Machine.execRdMlenLo s
  | .rdMlenHi => Sys2Proof.Machine.execRdMlenHi s
  | .rdDigest j => Sys2Proof.Machine.execRdDigest j s
  | .rdKey j => Sys2Proof.Machine.execRdKey j s
  | .wrKey j w => Sys2Proof.Machine.execWrKey j w s
  | .wrDin1 w => Sys2Proof.Machine.execWrDin1 w s
  | .wrDin2 w => Sys2Proof.Machine.execWrDin2 w s
  | .wrDin3 w => Sys2Proof.Machine.execWrDin3 w s
  | .wrDin4 w => Sys2Proof.Machine.execWrDin4 w s

end Sys2Proof.Machine
end

