-- ==== Sys2Proof/Machine/Perform.lean ====
section
/-! DEFINITION. One access performed: decoded, then run or suppressed. -/

namespace Sys2Proof.Machine

/-- An access is decoded when it is performed (spec/30_encoding.md R79): it runs its operation, or its error is raised and
the access is suppressed (spec/60_exceptions.md R146). -/
def perform (a : Access) (s : State) : Host.Outcome State Fault Refusal :=
  match decode a with
  | .op i => exec i s
  | .reject r => .next (s.suppress a.dir r.err)

end Sys2Proof.Machine
end

