-- ==== Sys2Proof/Machine/Step.lean ====
section
/-! DEFINITION. One step of the block: the engine's, the platform's or the host's next access. -/

namespace Sys2Proof.Machine

/-- One step (spec/20_memory.md R58 to R61). -/
def step (s : State) : Host.Outcome State Fault Refusal :=
  match arbitrate s with
  | .moved t => .next t
  | .perform a t => perform a t

/-- The state in which the next step takes the access that an opcode-table row's bits stand for
(notes/assumptions/7.md, notes/assumptions/8.md). Bits that stand for no access leave the state as it is. -/
def State.withFetchWord (s : State) (nbits w : Nat) : State :=
  match tableAccess nbits w with
  | some a => s.issue a
  | none => s

end Sys2Proof.Machine
end

