-- ==== Sys2Proof/Machine/HostProc.lean ====
section
/-! DEFINITION. The host's side: accesses performed one after another, and the host procedures of spec/30_encoding.md R80 to
R82 as lists of operations (notes/assumptions/21.md). -/

namespace Sys2Proof.Machine

/-- The number of stream bytes an operation carries: `n` for a write of DINn (spec/30_encoding.md R72). -/
def byteCount : Instr → Nat
  | .wrDin1 _ => 1
  | .wrDin2 _ => 2
  | .wrDin3 _ => 3
  | .wrDin4 _ => 4
  | .nop | .shaInit | .shaFinal | .keyLoad | .cyStart | .abort | .clrErr | .rdId | .rdStatus | .rdDout | .rdCycntLo
  | .rdCycntHi | .rdMlenLo | .rdMlenHi | .rdDigest _ | .rdKey _ | .wrKey _ _ => 0

/-- The stream bytes an operation carries, in order (spec/20_memory.md R54). -/
def dataBytes : Instr → List Byte
  | .wrDin1 w => streamBytes 1 w
  | .wrDin2 w => streamBytes 2 w
  | .wrDin3 w => streamBytes 3 w
  | .wrDin4 w => streamBytes 4 w
  | .nop | .shaInit | .shaFinal | .keyLoad | .cyStart | .abort | .clrErr | .rdId | .rdStatus | .rdDout | .rdCycntLo
  | .rdCycntHi | .rdMlenLo | .rdMlenHi | .rdDigest _ | .rdKey _ | .wrKey _ _ => []

/-- `bytes S`: full words, then one short word for what is left (spec/30_encoding.md R80). -/
def bytesOps : List Byte → List Instr
  | b0 :: b1 :: b2 :: b3 :: rest => .wrDin4 (b0 ++ b1 ++ b2 ++ b3) :: bytesOps rest
  | [b0, b1, b2] => [.wrDin3 (b0 ++ b1 ++ b2 ++ 0#8)]
  | [b0, b1] => [.wrDin2 (b0 ++ b1 ++ 0#16)]
  | [b0] => [.wrDin1 (b0 ++ 0#24)]
  | [] => []

/-- `rd DIGEST` (spec/30_encoding.md R80). -/
def readDigestOps : List Instr := (List.range 8).map fun j => .rdDigest (BitVec.ofNat 3 j)

/-- The host procedure SHA_DIGEST(S) (spec/30_encoding.md R81). -/
def shaDigestOps (bytes : List Byte) : List Instr := .shaInit :: bytesOps bytes ++ .shaFinal :: readDigestOps

/-- The host procedure CY_APPLY(S): each data write is followed by a DOUT read (spec/30_encoding.md R82). -/
def cyApplyOps (bytes : List Byte) : List Instr :=
  .cyStart :: (bytesOps bytes).flatMap (fun i => [i, .rdDout]) ++ [.rdCycntLo, .rdCycntHi]

/-- The output stream of CY_APPLY(S): "the concatenation, in order, of the top N bytes of each DOUT read"
(spec/30_encoding.md R82). `outs` are the words of the DOUT reads, the oldest first. -/
def cyOutput (bytes : List Byte) (outs : List Word) : List Byte :=
  ((bytesOps bytes).zip outs).flatMap fun p => streamBytes (byteCount p.1) p.2

/-- Accesses performed one after another, each seeing the state left by all earlier ones (spec/20_memory.md R60, R61). -/
def performAll : List Access → State → Host.Outcome State Fault Refusal
  | [], s => .next s
  | a :: rest, s =>
    match perform a s with
    | .next t => performAll rest t
    | .fault r => .fault r
    | .refused r => .refused r

end Sys2Proof.Machine
end

