-- ==== Sys2Proof/Safety.lean ====
section
/-! DEFINITION. The terms in which claims are stated: the invariant of reachable states, what counts as a run without errors,
which states a host cannot tell apart, the digest of a whole message and the cypher of a whole stream. -/

namespace Sys2Proof.Safety

open Sys2Proof.Machine

/-- The invariant of spec/10_state.md R40, clauses (a), (b), (c), (d) and (f). Clause (e) holds of every term of the type
`Err`; clause (g) is about a step, not about a state. -/
structure Inv (s : State) : Prop where
  /-- (a) `MODE != SHA` implies `BLEN = 0`. -/
  blen_zero     : s.mode ≠ .sha → s.blen = 0
  /-- (b) `DOUT_LEN <= 4`. -/
  doutLen_le    : s.doutLen.toNat ≤ 4
  /-- (b) and (c): the bytes of DOUT beyond DOUT_LEN are 0. -/
  dout_masked   : s.dout &&& mask s.doutLen.toNat = s.dout
  /-- (d) `DOUT_VALID = 1` implies `DOUT_LEN >= 1`. -/
  doutLen_pos   : s.doutValid = true → 1 ≤ s.doutLen.toNat
  /-- (f) `MODE = CY_END` implies `1 <= DOUT_LEN <= 3`. -/
  doutLen_short : s.mode = .cyEnd → 1 ≤ s.doutLen.toNat ∧ s.doutLen.toNat ≤ 3

/-- From `s` to `t` no access raised an error: the count of spec/60_exceptions.md R162 is unchanged. -/
def NoErrorRaised (s t : State) : Prop := t.raised = s.raised

/-- Two states that differ only in what no rule reads: H outside MODE = SHA, and BLK beyond the message bytes held
(spec/10_state.md R25, R42). -/
structure HiddenEq (s t : State) : Prop where
  visible : { s with hash := t.hash, blk := t.blk } = t
  held    : s.held = t.held
  hash    : s.mode = .sha → s.hash = t.hash

/-- The number that stands for a mode in STATUS (spec/10_state.md R22). -/
def modeValue : Mode → Nat
  | .idle => 0
  | .sha => 1
  | .cy => 2
  | .cyEnd => 3

/-- The number that stands for an error in STATUS (spec/60_exceptions.md R143). -/
def errValue : Err → Nat
  | .none => 0
  | .bus => 1
  | .cmd => 2
  | .seq => 3
  | .noDigest => 4

/-- Every element the spec gives a value after reset holds it (spec/10_state.md R41). H and BLK are unspecified (R42). -/
structure ResetValues (t : State) : Prop where
  mode      : t.mode = .idle
  busy      : t.busy = false
  blen      : t.blen = 0
  mlen      : t.mlen = 0
  digest    : ∀ j : Index, wordAt t.digest j = 0
  dvalid    : t.dvalid = false
  key       : ∀ j : Index, wordAt t.key j = 0
  kidx      : t.kidx = 0
  cycnt     : t.cycnt = 0
  dout      : t.dout = 0
  doutLen   : t.doutLen = 0
  doutValid : t.doutValid = false
  ovr       : t.ovr = false
  err       : t.err = .none

/-- The elements of the block's state (spec/10_state.md R41). -/
inductive Element where
  | mode | busy | hash | blk | blen | mlen | digest | dvalid | key | kidx | cycnt | dout | doutLen | doutValid | ovr | err
  deriving DecidableEq, Repr

/-- An element has the same value in both states. -/
def SameElement (e : Element) (s t : State) : Prop :=
  match e with
  | .mode => t.mode = s.mode
  | .busy => t.busy = s.busy
  | .hash => t.hash = s.hash
  | .blk => t.blk = s.blk
  | .blen => t.blen = s.blen
  | .mlen => t.mlen = s.mlen
  | .digest => t.digest = s.digest
  | .dvalid => t.dvalid = s.dvalid
  | .key => t.key = s.key
  | .kidx => t.kidx = s.kidx
  | .cycnt => t.cycnt = s.cycnt
  | .dout => t.dout = s.dout
  | .doutLen => t.doutLen = s.doutLen
  | .doutValid => t.doutValid = s.doutValid
  | .ovr => t.ovr = s.ovr
  | .err => t.err = s.err

/-- The write set of a data write, by MODE (spec/10_state.md R43). -/
def dataWriteSet : Mode → List Element
  | .sha => [.blk, .blen, .mlen, .hash, .busy]
  | .cy => [.dout, .doutLen, .doutValid, .ovr, .cycnt, .kidx, .mode]
  | .idle | .cyEnd => []

/-- The table of spec/10_state.md R43: the elements an operation can change when it completes without error. -/
def writeSet (i : Instr) (m : Mode) : List Element :=
  match i with
  | .nop => []
  | .shaInit => [.hash, .blen, .mlen, .dvalid, .mode]
  | .shaFinal => [.hash, .blk, .blen, .digest, .dvalid, .mode, .busy]
  | .keyLoad => [.key]
  | .cyStart => [.mode, .kidx, .cycnt, .dout, .doutLen, .doutValid, .blen]
  | .abort => [.mode, .blen]
  | .clrErr => [.err, .ovr]
  | .wrDin1 _ | .wrDin2 _ | .wrDin3 _ | .wrDin4 _ => dataWriteSet m
  | .wrKey _ _ => [.key]
  | .rdDout => [.doutValid]
  | .rdId | .rdStatus | .rdCycntLo | .rdCycntHi | .rdMlenLo | .rdMlenHi | .rdDigest _ | .rdKey _ => []

/-- A command word with opcode `opc` and a reserved bit set is not that command: it raises ERR_CMD, recorded only if ERR was
0, and nothing else happens (spec/30_encoding.md R70, R74). -/
def ReservedBitsRefused (opc : Nat) (s : State) : Prop :=
  ∀ w : Word, w.toNat % 256 = opc → 256 ≤ w.toNat →
    perform (busWrite 0x04 w) s = .next { s with err := if s.err = .none then .cmd else s.err, raised := s.raised + 1 }

/-- The next event from outside is the platform's reset. -/
def resetNext (s : State) : Bool :=
  match s.queue with
  | .reset :: _ => true
  | _ => false

/-- The operation that the next step of `s` performs, if it performs one. -/
def performs (s : State) : Option Instr :=
  match arbitrate s with
  | .perform a _ =>
    match decode a with
    | .op i => some i
    | .reject _ => none
  | .moved _ => none

/-- An access that leaves a message in progress: a data write, a read, a KEYj write, NOP, CLR_ERR, KEY_LOAD or an erroneous
access (spec/40_sha256.md R101). -/
def keepsMessage (a : Access) : Bool :=
  match decode a with
  | .op .shaInit | .op .shaFinal | .op .cyStart | .op .abort => false
  | _ => true

/-- The message bytes an access carries: those of a data write, none for any other access, erroneous or not. -/
def accessBytes (a : Access) : List Byte :=
  match decode a with
  | .op i => dataBytes i
  | .reject _ => []

/-- The whole message padded: one byte 0x80, the fewest zeros that reach a multiple of 64 bytes with the length field, and the
bit length as a big-endian 64-bit integer (spec/40_sha256.md R98, R112, read over the whole message). -/
def paddedMessage (m : List Byte) : List Byte :=
  m ++ [0x80] ++ List.replicate ((119 - m.length % 64) % 64) 0 ++ be64 (BitVec.ofNat 64 (8 * m.length))

/-- The SHA-256 digest of a message: the blocks of the padded message compressed in order from IV
(spec/40_sha256.md R84, R91, R92, R98). For a message of 2^61 bytes or more SHA-256 is not defined (R102), and this value is
DESIGN CHOICE (notes/assumptions/16.md). -/
def sha256 (m : List Byte) : Vector Word 8 :=
  compressBlocks ((paddedMessage m).length / 64) initialVector (paddedMessage m)

/-- The cypher of a whole stream: output byte `p` is `in[p] XOR be32(KEY[(p div 4) mod 8])[p mod 4]`
(spec/41_cypher.md R121). -/
def cypherStream (key : Vector Word 8) (bytes : List Byte) : List Byte :=
  bytes.mapIdx fun p b => b ^^^ wordsByte key p

end Sys2Proof.Safety
end

