-- ==== Sys2Proof/Certificates/Slice0/Obligations.lean ====
section
/-! DEFINITION. The statements for the provers. Each docstring names the rule of spec/ that the statement formalises. -/

open Sys2Proof Sys2Proof.Machine Sys2Proof.Safety

/-! ### The step: which agent moves and what it runs -/

/-- When no busy period holds it, the host's next access, if it decodes to an operation, is that operation's meaning run in
the state without that event (spec/30_encoding.md R79, spec/20_memory.md R61). -/
def Obligations.StepRunsTheDecodedOperation : Prop :=
  ∀ (s : State) (a : Access) (rest : List Event) (i : Instr),
    s.queue = .access a :: rest → s.busy = false → decode a = .op i →
    step s = exec i { s with queue := rest }

/-- The state that `withFetchWord` prepares runs the operation that the opcode table's bits decode to, with no busy period
left (the model's choice: notes/assumptions/7.md and 8.md). -/
def Obligations.FetchedTableWordRuns : Prop :=
  ∀ (s : State) (nbits w : Nat) (i : Instr),
    decodeTableWord nbits w = some i → step (s.withFetchWord nbits w) = exec i { s with busy := false }

/-- While BUSY = 1 every access but a legal STATUS read waits for the engine's step, which changes BUSY alone; a STATUS read
may be performed before that step or after it (spec/20_memory.md R58, R59; that the order is a free value is the model's
choice, notes/assumptions/4.md). -/
def Obligations.BusyPeriodHoldsAccesses : Prop :=
  ∀ (s : State) (a : Access) (rest : List Event),
    s.busy = true → s.queue = .access a :: rest →
    (decode a ≠ .op .rdStatus → step s = .next { s with busy := false }) ∧
    (decode a = .op .rdStatus →
      step s = exec .rdStatus { s with queue := rest, draws := s.draws + 1 } ∨
      step s = .next { s with busy := false, draws := s.draws + 1 })

/-- With no event from outside, the engine ends a busy period and nothing else changes; without a busy period the block waits
unchanged (spec/20_memory.md R58; the waiting step is the model's choice, notes/assumptions/12.md). -/
def Obligations.EngineEndsTheBusyPeriodAlone : Prop :=
  ∀ s : State, s.queue = [] → step s = .next { s with busy := false }

/-- An access that names no operation is suppressed: ERR_BUS for a wrong form or a place outside the map, ERR_CMD for a
wrong command word, recorded if ERR was 0; a READ returns 0, and nothing else changes (spec/30_encoding.md R75,
spec/60_exceptions.md R146, R148). `raised` is R162's count of errors (notes/assumptions/10.md). `replies` holds the words
READs return, R45 (notes/assumptions/9.md). -/
def Obligations.IllegalAccessIsSuppressed : Prop :=
  ∀ (s : State) (a : Access) (rest : List Event),
    s.queue = .access a :: rest → s.busy = false → a.wellFormed = false →
    step s = .next { s with
      queue := rest,
      err := if s.err = .none then (if a.sizeOk && a.aligned && a.mapped then .cmd else .bus) else s.err,
      raised := s.raised + 1,
      replies := if a.dir = .read then 0 :: s.replies else s.replies }

/-- The value of every element after reset, and STATUS reads 0: in the state after reset, and in the state after any step that
takes the platform's reset, whatever was in progress (spec/10_state.md R41). -/
def Obligations.ResetGivesEveryElementItsValue : Prop :=
  (ResetValues State.reset ∧ statusWord State.reset = 0) ∧
  ∀ (s : State) (rest : List Event), s.queue = .reset :: rest →
    ∃ t, step s = .next t ∧ ResetValues t ∧ statusWord t = 0

/-- No run of the block ever stops: each access completes, completes with an error, or is held (spec/60_exceptions.md R161). -/
def Obligations.NoRunEverStops : Prop :=
  ∀ (k : Nat) (s : State), ∃ t : State, Sys2Proof.core.run k s = .next t

/-- A busy period ends: after at most one step for each waiting event and one more, BUSY is 0 (spec/20_memory.md R58: "a model
assumes only that the engine step eventually happens"; that STATUS reads in a queue are finitely many is the model's,
notes/assumptions/4.md). -/
def Obligations.BusyPeriodAlwaysEnds : Prop :=
  ∀ s : State, s.busy = true →
    ∃ k t, k ≤ s.queue.length + 1 ∧ Sys2Proof.core.run k s = .next t ∧ t.busy = false

/-- A program that never reads STATUS needs no software wait: run by steps, with every hold on the way, it ends in the state
that performing its accesses one after another gives, with the last busy period over (spec/70_reset_and_hazards.md R170,
spec/20_memory.md R60, R61). -/
def Obligations.BusyPeriodsNeedNoSoftwareWait : Prop :=
  ∀ (as : List Access) (s : State), s.queue = as.map .access → (∀ a ∈ as, decode a ≠ .op .rdStatus) →
    ∃ k u, performAll as { s with queue := [] } = .next u ∧
      Sys2Proof.core.run k s = .next { u with busy := false }

/-! ### Decoding -/

/-- Words written out from the spec's encodings decode to the operations they stand for (spec/30_encoding.md R68 to R71): a
sanity check. -/
def Obligations.SampleWordsDecode : Prop :=
  decode { dir := .write, off := 0b0000100#7, size := 4, wdata := 0x00000002 } = .op .shaFinal ∧
  decode { dir := .write, off := 0b0000100#7, size := 4, wdata := 0x00000004 } = .op .cyStart ∧
  decode { dir := .write, off := 0b0000100#7, size := 4, wdata := 0x00000006 } = .op .clrErr ∧
  decode { dir := .read, off := 0b0001000#7, size := 4, wdata := 0 } = .op .rdStatus ∧
  decode { dir := .read, off := 0b1010100#7, size := 4, wdata := 0 } = .op (.rdDigest 5) ∧
  decode { dir := .read, off := 0b1101100#7, size := 4, wdata := 0 } = .op (.rdKey 3) ∧
  decode { dir := .write, off := 0b1111000#7, size := 4, wdata := 0xE3B0C442 } = .op (.wrKey 6 0xE3B0C442) ∧
  decode { dir := .write, off := 0b0011000#7, size := 4, wdata := 0x61626300 } = .op (.wrDin3 0x61626300)

/-- Decoding the access that an operation is gives the operation back, with every index and every data word
(spec/30_encoding.md R67 to R71). -/
def Obligations.DecodeOfEncodeIsTheOperation : Prop :=
  ∀ i : Instr, decode (encode i) = .op i

/-- An operation has one access only: an access that decodes to it has its direction, offset and size and, for a WRITE, its
data word (spec/30_encoding.md R67, R71). -/
def Obligations.DecodeDeterminesTheAccess : Prop :=
  ∀ (a : Access) (i : Instr), decode a = .op i → a.sameOperation (encode i) = true

/-- The decoder is total and accepts exactly the accesses of the map: an access of legal form, in the map and, for CMD, with a
legal word is an operation; any other raises ERR_BUS if its form or its place in the map is wrong, and ERR_CMD otherwise
(spec/30_encoding.md R79, spec/60_exceptions.md R148). -/
def Obligations.DecodeAcceptsExactlyTheMap : Prop :=
  ∀ a : Access,
    (a.wellFormed = true → ∃ i, decode a = .op i) ∧
    (a.wellFormed = false → ∃ r, decode a = .reject r ∧
      r.err = if a.sizeOk && a.aligned && a.mapped then .cmd else .bus)

/-- A WRITE of `w` to CMD: a word of 7 or more, whether its reserved bits or its opcode make it so, raises ERR_CMD and
nothing else happens; the words 0 to 6 are the seven commands (spec/30_encoding.md R70, R74). `raised` is R162's count of
errors (notes/assumptions/10.md). -/
def Obligations.CommandWordSelectsTheCommand : Prop :=
  ∀ (w : Word) (s : State),
    perform (busWrite 0x04 w) s =
      if w.toNat = 0 then exec .nop s
      else if w.toNat = 1 then exec .shaInit s
      else if w.toNat = 2 then exec .shaFinal s
      else if w.toNat = 3 then exec .keyLoad s
      else if w.toNat = 4 then exec .cyStart s
      else if w.toNat = 5 then exec .abort s
      else if w.toNat = 6 then exec .clrErr s
      else .next { s with err := if s.err = .none then .cmd else s.err, raised := s.raised + 1 }

/-- The window: ENGINE_BASE is a multiple of 128, the bus address of each offset selects that offset, and an address outside
the window selects none (spec/20_memory.md R46). -/
def Obligations.WindowSelectsOffsets : Prop :=
  Config.engineBase % 128 = 0 ∧ (∀ off : Offset, windowOffset (busAddress off) = some off) ∧
  ∀ addr : Nat, (addr < Config.engineBase ∨ Config.engineBase + 0x7F < addr) → windowOffset addr = none

/-! ### Reads -/

/-- A read of ID, CYCNT, L, DIGESTj or KEYj returns the value of its element and changes nothing else of the state
(spec/42_control.md R130, R132, R133, R134; spec/41_cypher.md R113). `replies` holds the words READs return, R45
(notes/assumptions/9.md). -/
def Obligations.RegisterReadsReturnTheirElement : Prop :=
  ∀ (s : State) (j : Index),
    exec .rdId s = .next { s with replies := 0x53484132 :: s.replies } ∧
    exec .rdCycntLo s = .next { s with replies := s.cycnt.setWidth 32 :: s.replies } ∧
    exec .rdCycntHi s = .next { s with replies := (s.cycnt >>> 32).setWidth 32 :: s.replies } ∧
    exec .rdMlenLo s = .next { s with replies := s.mlen.setWidth 32 :: s.replies } ∧
    exec .rdMlenHi s = .next { s with replies := (s.mlen >>> 32).setWidth 32 :: s.replies } ∧
    exec (.rdDigest j) s = .next { s with replies := s.digest[j.toNat]'j.isLt :: s.replies } ∧
    exec (.rdKey j) s = .next { s with replies := s.key[j.toNat]'j.isLt :: s.replies }

/-- A read of STATUS returns the weighted sum of its fields, so every reserved bit reads 0, and changes nothing else of the
state; a write of STATUS raises ERR_BUS and writes no field (spec/10_state.md R38, spec/42_control.md R131). `raised` is
R162's count of errors (notes/assumptions/10.md). `replies` holds the words READs return, R45 (notes/assumptions/9.md). -/
def Obligations.StatusReadsAsTheSumOfItsFields : Prop :=
  ∀ s : State,
    (∃ v : Word, exec .rdStatus s = .next { s with replies := v :: s.replies } ∧
      v.toNat =
        modeValue s.mode +
        (if s.busy then 2 ^ 2 else 0) + (if s.dvalid then 2 ^ 3 else 0) + (if s.doutValid then 2 ^ 4 else 0) +
        (if s.ovr then 2 ^ 5 else 0) + s.doutLen.toNat * 2 ^ 8 + s.kidx.toNat * 2 ^ 12 + s.blen.toNat * 2 ^ 16 +
        errValue s.err * 2 ^ 24) ∧
    ∀ w : Word, perform (busWrite 0x08 w) s =
      .next { s with err := if s.err = .none then .bus else s.err, raised := s.raised + 1 }

/-- A read of DOUT returns it and clears DOUT_VALID, whatever DOUT_VALID was; DOUT and DOUT_LEN keep their values. A write
of DOUT is ERR_BUS (spec/41_cypher.md R122). `raised` is R162's count of errors (notes/assumptions/10.md). `replies` holds
the words READs return, R45 (notes/assumptions/9.md). -/
def Obligations.DoutReadClearsDoutValid : Prop :=
  ∀ s : State,
    exec .rdDout s = .next { s with doutValid := false, replies := s.dout :: s.replies } ∧
    ∀ w : Word, perform (busWrite 0x20 w) s =
      .next { s with err := if s.err = .none then .bus else s.err, raised := s.raised + 1 }

/-! ### Commands and key writes -/

/-- NOP changes nothing; ABORT sets MODE to IDLE and BLEN to 0 and changes nothing else, in every MODE; with a reserved bit
set neither is performed (spec/42_control.md R136, R137). `raised` is R162's count of errors (notes/assumptions/10.md). -/
def Obligations.NopAndAbortCompleteInEveryMode : Prop :=
  ∀ s : State,
    exec .nop s = .next s ∧ exec .abort s = .next { s with mode := .idle, blen := 0 } ∧
    ReservedBitsRefused 0 s ∧ ReservedBitsRefused 5 s

/-- CLR_ERR clears ERR and OVR and changes nothing else; a word with its opcode and a reserved bit set clears nothing; and
over every step, only CLR_ERR and reset clear ERR or OVR (spec/42_control.md R138). `raised` is R162's count of errors
(notes/assumptions/10.md). -/
def Obligations.ClrErrAloneClearsErrAndOvr : Prop :=
  ∀ s : State,
    exec .clrErr s = .next { s with err := .none, ovr := false } ∧
    ReservedBitsRefused 6 s ∧
    ∀ t : State, step s = .next t → (s.err ≠ .none ∧ t.err = .none ∨ s.ovr = true ∧ t.ovr = false) →
      performs s = some .clrErr ∨ resetNext s = true

/-- SHA_INIT starts a new message in every MODE: H becomes IV, BLEN, L and DVALID become 0, MODE becomes SHA, and nothing
else changes; with a reserved bit set it is not performed (spec/40_sha256.md R94). `raised` is R162's count of errors
(notes/assumptions/10.md). -/
def Obligations.ShaInitStartsAMessage : Prop :=
  ∀ s : State,
    exec .shaInit s = .next { s with
      hash := #v[0x6a09e667, 0xbb67ae85, 0x3c6ef372, 0xa54ff53a, 0x510e527f, 0x9b05688c, 0x1f83d9ab, 0x5be0cd19],
      blen := 0, mlen := 0, dvalid := false, mode := .sha } ∧
    ReservedBitsRefused 1 s

/-- SHA_FINAL in MODE = SHA: with up to 55 message bytes held, one block (the bytes, 0x80, zeros, the bit length) is
compressed; with 56 or more, two. The result is H and DIGEST, word by word in the same order; DVALID and BUSY become 1, BLEN
0, MODE IDLE; what BLK holds and how many free values were taken is left open, and nothing else changes, L included. In any
other MODE it raises ERR_SEQ, with a reserved bit set ERR_CMD (spec/40_sha256.md R98, R99, R105, R106). `raised` is R162's
count of errors (notes/assumptions/10.md). -/
def Obligations.ShaFinalPublishesTheDigest : Prop :=
  ∀ s : State,
    (s.mode ≠ .sha → exec .shaFinal s =
      .next { s with err := if s.err = .none then .seq else s.err, raised := s.raised + 1 }) ∧
    ReservedBitsRefused 2 s ∧
    (s.mode = .sha → ∃ (blk' : Vector Byte 64) (draws' : Nat),
      let n := s.blen.toNat
      let m := s.blk.toList.take n
      let hs :=
        if n ≤ 55 then compress s.hash (m ++ [0x80] ++ List.replicate (55 - n) 0 ++ be64 s.mlen)
        else compress (compress s.hash (m ++ [0x80] ++ List.replicate (63 - n) 0)) (List.replicate 56 0 ++ be64 s.mlen)
      exec .shaFinal s = .next { s with
        hash := hs, digest := hs, dvalid := true, blen := 0, mode := .idle, busy := true, blk := blk',
        draws := draws' })

/-- KEY_LOAD copies DIGEST into KEY in every MODE when DVALID = 1; otherwise it raises ERR_NODIGEST. Nothing else changes.
With a reserved bit set it is not performed (spec/41_cypher.md R116). `raised` is R162's count of errors
(notes/assumptions/10.md). -/
def Obligations.KeyLoadCopiesAValidDigest : Prop :=
  ∀ s : State,
    (s.dvalid = true → exec .keyLoad s = .next { s with key := s.digest }) ∧
    (s.dvalid = false → exec .keyLoad s =
      .next { s with err := if s.err = .none then .noDigest else s.err, raised := s.raised + 1 }) ∧
    ReservedBitsRefused 3 s

/-- CY_START begins a stream at keystream offset 0 in every MODE and changes nothing else; with a reserved bit set it is not
performed (spec/41_cypher.md R118). `raised` is R162's count of errors (notes/assumptions/10.md). -/
def Obligations.CyStartBeginsAtOffsetZero : Prop :=
  ∀ s : State,
    exec .cyStart s = .next { s with
      mode := .cy, kidx := 0, cycnt := 0, dout := 0, doutLen := 0, doutValid := false, blen := 0 } ∧
    ReservedBitsRefused 4 s

/-- A write of KEYj stores the whole word there in every MODE; the other key words and everything else keep their values
(spec/41_cypher.md R114). -/
def Obligations.KeyWriteStoresOneWord : Prop :=
  ∀ (j : Index) (w : Word) (s : State),
    ∃ t, exec (.wrKey j w) s = .next t ∧ t.key[j.toNat]'j.isLt = w ∧
      (∀ k : Index, k ≠ j → t.key[k.toNat]'k.isLt = s.key[k.toNat]'k.isLt) ∧ { t with key := s.key } = s

/-! ### Data writes -/

/-- The first stream byte of a data word is in bits 31:24, the next in 23:16, 15:8 and 7:0; the four bytes of a word
assembled big-endian are the word, and byte k of the eight words of a digest is byte k mod 4 of word k div 4
(spec/20_memory.md R54, spec/00_scope.md R11, spec/10_state.md R30). -/
def Obligations.StreamBytesAreBigEndian : Prop :=
  (∀ (n : Nat) (w : Word), n ≤ 4 →
    streamBytes n w = ([w.extractLsb' 24 8, w.extractLsb' 16 8, w.extractLsb' 8 8, w.extractLsb' 0 8] : List Byte).take n) ∧
  (∀ w : Word, wordBe (be32 w) 0 = w) ∧
  ∀ (v : Vector Word 8) (k : Nat) (h : k < 32), wordsByte v k = (be32 (v[k / 4]'(by omega))).getD (k % 4) 0

/-- Every data word is legal with every byte count, and the bytes of a short data word beyond its count have no effect, in any
MODE: two words that agree in the top n bytes do the same (spec/30_encoding.md R73). -/
def Obligations.IgnoredBytesHaveNoEffect : Prop :=
  (∀ w : Word, [0x10, 0x14, 0x18, 0x1C].map (fun off => decode (busWrite off w)) =
    [.op (.wrDin1 w), .op (.wrDin2 w), .op (.wrDin3 w), .op (.wrDin4 w)]) ∧
  ∀ (w w' : Word) (n : Nat) (i i' : Instr) (s : State),
    (n, i, i') ∈ [(1, .wrDin1 w, .wrDin1 w'), (2, .wrDin2 w, .wrDin2 w'), (3, .wrDin3 w, .wrDin3 w')] →
    w.toNat / 2 ^ (32 - 8 * n) = w'.toNat / 2 ^ (32 - 8 * n) → exec i s = exec i' s

/-- A data write in MODE = SHA that does not fill the block: its bytes follow those held, BLEN and L advance, and nothing else
changes, BUSY included (spec/40_sha256.md R95, R96, R97, R107). -/
def Obligations.DataWriteAbsorbsIntoTheBlock : Prop :=
  ∀ (w : Word) (n : Nat) (i : Instr) (s : State),
    (n, i) ∈ [(1, Instr.wrDin1 w), (2, .wrDin2 w), (3, .wrDin3 w), (4, .wrDin4 w)] →
    s.mode = .sha → s.blen.toNat + n < 64 →
    ∃ t, exec i s = .next t ∧
      t.blk.toList.take t.blen.toNat = s.blk.toList.take s.blen.toNat ++ streamBytes n w ∧
      t.blen.toNat = s.blen.toNat + n ∧ t.mlen = s.mlen + BitVec.ofNat 64 (8 * n) ∧
      { t with blk := s.blk, blen := s.blen, mlen := s.mlen } = s

/-- A data write in MODE = SHA that fills the block, even in the middle of the word: the 64 bytes are compressed at once, the
bytes left over start the next block, BUSY becomes 1, and nothing else changes (spec/40_sha256.md R95, R96, R97, R107). -/
def Obligations.DataWriteCompressesAFullBlock : Prop :=
  ∀ (w : Word) (n : Nat) (i : Instr) (s : State),
    (n, i) ∈ [(1, Instr.wrDin1 w), (2, .wrDin2 w), (3, .wrDin3 w), (4, .wrDin4 w)] →
    s.mode = .sha → 64 ≤ s.blen.toNat + n →
    ∃ t, exec i s = .next t ∧
      t.hash = compress s.hash ((s.blk.toList.take s.blen.toNat ++ streamBytes n w).take 64) ∧
      t.blk.toList.take t.blen.toNat = (s.blk.toList.take s.blen.toNat ++ streamBytes n w).drop 64 ∧
      t.blen.toNat = s.blen.toNat + n - 64 ∧ t.mlen = s.mlen + BitVec.ofNat 64 (8 * n) ∧
      t.busy = true ∧ { t with blk := s.blk, blen := s.blen, mlen := s.mlen, hash := s.hash, busy := s.busy } = s

/-- A data write raises ERR_SEQ in MODE = IDLE and CY_END, and changes nothing else. In MODE = CY: DOUT becomes the word
XORed with KEY[KIDX] in its top n bytes and 0 below, DOUT_LEN n, DOUT_VALID 1, OVR 1 if the last result was unread, CYCNT
advances by n; a full word advances KIDX modulo 8, a short one ends the stream; nothing else changes (spec/41_cypher.md
R119, R120, R123, R124). `raised` is R162's count of errors (notes/assumptions/10.md). -/
def Obligations.DataWriteXorsWithTheKeystream : Prop :=
  ∀ (w m : Word) (n : Nat) (i : Instr) (s : State),
    (n, i, m) ∈ [(1, Instr.wrDin1 w, 0xFF000000#32), (2, .wrDin2 w, 0xFFFF0000#32), (3, .wrDin3 w, 0xFFFFFF00#32),
      (4, .wrDin4 w, 0xFFFFFFFF#32)] →
    (s.mode = .idle ∨ s.mode = .cyEnd → exec i s =
      .next { s with err := if s.err = .none then .seq else s.err, raised := s.raised + 1 }) ∧
    (s.mode = .cy → ∃ t, exec i s = .next t ∧
      t.dout = (w ^^^ s.key[s.kidx.toNat]'s.kidx.isLt) &&& m ∧ t.doutLen.toNat = n ∧ t.doutValid = true ∧
      t.ovr = (s.ovr || s.doutValid) ∧ t.cycnt.toNat = (s.cycnt.toNat + n) % 2 ^ 64 ∧
      t.kidx.toNat = (if n = 4 then (s.kidx.toNat + 1) % 8 else s.kidx.toNat) ∧
      t.mode = (if n = 4 then .cy else .cyEnd) ∧
      { t with
        dout := s.dout, doutLen := s.doutLen, doutValid := s.doutValid, ovr := s.ovr, cycnt := s.cycnt,
        kidx := s.kidx, mode := s.mode } = s)

/-! ### Rules about the whole block -/

/-- The mode table: every operation completes in every MODE with the MODE of its entry, or raises the error of its entry and
changes nothing else (spec/30_encoding.md R77). `raised` is R162's count of errors (notes/assumptions/10.md). -/
def Obligations.ModeTableHolds : Prop :=
  ∀ (i : Instr) (s : State), ∃ t, exec i s = .next t ∧
    t.mode = (match i, s.mode with
      | .shaInit, _ => .sha
      | .shaFinal, .sha => .idle
      | .cyStart, _ => .cy
      | .abort, _ => .idle
      | .wrDin1 _, .cy | .wrDin2 _, .cy | .wrDin3 _, .cy => .cyEnd
      | _, m => m) ∧
    t.raised = s.raised + (match i, s.mode with
      | .shaFinal, .idle | .shaFinal, .cy | .shaFinal, .cyEnd => 1
      | .keyLoad, _ => if s.dvalid then 0 else 1
      | .wrDin1 _, .idle | .wrDin2 _, .idle | .wrDin3 _, .idle | .wrDin4 _, .idle => 1
      | .wrDin1 _, .cyEnd | .wrDin2 _, .cyEnd | .wrDin3 _, .cyEnd | .wrDin4 _, .cyEnd => 1
      | _, _ => 0) ∧
    (t.raised ≠ s.raised → t = { s with
      err := if s.err = .none then (if i = .keyLoad then .noDigest else .seq) else s.err, raised := s.raised + 1 })

/-- Whatever the access, legal or not: either it raises no error, or it changes the record of errors alone, keeping an error
already recorded, and a READ returns 0 (spec/60_exceptions.md R146, R147). `raised` is R162's count of errors
(notes/assumptions/10.md). `replies` holds the words READs return, R45 (notes/assumptions/9.md). -/
def Obligations.AnErrorChangesOnlyTheRecord : Prop :=
  ∀ (a : Access) (s : State), ∃ t, perform a s = .next t ∧
    (NoErrorRaised s t ∨ ∃ e : Err, e ≠ .none ∧ t = { s with
      err := if s.err = .none then e else s.err, raised := s.raised + 1,
      replies := if a.dir = .read then 0 :: s.replies else s.replies })

/-- ERR is set only by an error raised while it is 0, and cleared only by CLR_ERR and reset, over every step
(spec/10_state.md R37). `raised` is R162's count of errors (notes/assumptions/10.md). -/
def Obligations.ErrKeepsTheFirstError : Prop :=
  ∀ s t : State, step s = .next t → t.err ≠ s.err →
    (s.err = .none ∧ t.raised = s.raised + 1) ∨
    (t.err = .none ∧ (performs s = some .clrErr ∨ resetNext s = true))

/-- The write sets: an operation that completes without error changes no element outside its row, a KEYj write no other key
word; an operation that raises an error changes ERR alone; a step of the engine changes BUSY alone (spec/10_state.md R43). -/
def Obligations.WriteSetsHold : Prop :=
  (∀ (i : Instr) (s : State), ∃ t, exec i s = .next t ∧
    (NoErrorRaised s t → ∀ e, e ∉ writeSet i s.mode → SameElement e s t) ∧
    (¬NoErrorRaised s t → ∀ e, e ≠ .err → SameElement e s t)) ∧
  (∀ (j k : Index) (w : Word) (s t : State),
    exec (.wrKey j w) s = .next t → k ≠ j → wordAt t.key k = wordAt s.key k) ∧
  ∀ s t : State, arbitrate s = .moved t → resetNext s = false → step s = .next t ∧ ∀ e, e ≠ .busy → SameElement e s t

/-- "Immutable once produced": over every step DIGEST changes only at a SHA_FINAL that completes and at reset; DVALID changes
only there and at SHA_INIT (spec/00_scope.md R19, spec/10_state.md R31, R33). -/
def Obligations.DigestChangesOnlyAtShaFinalOrReset : Prop :=
  ∀ s t : State, step s = .next t →
    (t.digest ≠ s.digest → resetNext s = true ∨ (performs s = some .shaFinal ∧ s.mode = .sha)) ∧
    (t.dvalid ≠ s.dvalid →
      resetNext s = true ∨ performs s = some .shaInit ∨ (performs s = some .shaFinal ∧ s.mode = .sha))

/-- Over every step KEY changes only at a KEYj write, a KEY_LOAD and reset, and KIDX only at CY_START, a full cypher word and
reset (spec/10_state.md R32, R43, spec/60_exceptions.md R155). -/
def Obligations.KeyAndIndexChangeOnlyWhereNamed : Prop :=
  ∀ s t : State, step s = .next t →
    (t.key ≠ s.key →
      resetNext s = true ∨ performs s = some .keyLoad ∨ ∃ j w, performs s = some (.wrKey j w)) ∧
    (t.kidx ≠ s.kidx →
      resetNext s = true ∨ performs s = some .cyStart ∨
      ∃ w, performs s = some (.wrDin4 w) ∧ s.mode = .cy ∧ t.kidx = s.kidx + 1)

/-- BUSY becomes 1 only at an access that runs a compression: a SHA_FINAL that completes, or a data write that fills the block
(spec/10_state.md R40 (g), R23; spec/40_sha256.md R106, R107). -/
def Obligations.BusyRisesOnlyAtACompression : Prop :=
  ∀ s t : State, step s = .next t → s.busy = false → t.busy = true →
    s.mode = .sha ∧ (performs s = some .shaFinal ∨
      ∃ i, performs s = some i ∧ 0 < byteCount i ∧ 64 ≤ s.blen.toNat + byteCount i)

/-- The invariant of reachable states is kept by every step: BLEN is 0 outside MODE = SHA, DOUT_LEN is at most 4 and the bytes
of DOUT beyond it are 0, DOUT_VALID and CY_END imply their lengths (spec/10_state.md R40, clauses (a) to (d) and (f)). -/
def Obligations.EveryStepKeepsTheInvariant : Prop :=
  ∀ s t : State, Inv s → step s = .next t → Inv t

/-- The state after reset meets the invariant (spec/10_state.md R40). -/
def Obligations.ResetMeetsTheInvariant : Prop :=
  Inv State.reset

/-- H outside MODE = SHA and BLK beyond the bytes held are never read: two states that differ only there take the same step,
and differ only there after it (spec/10_state.md R25, R42). -/
def Obligations.HiddenStateIsNeverRead : Prop :=
  ∀ s s' t : State, HiddenEq s s' → step s = .next t → ∃ t', step s' = .next t' ∧ HiddenEq t t'

/-- Whatever H and BLK hold after reset, no run of any sequence of events shows it: every READ returns the same word and
STATUS is the same (spec/10_state.md R42). So the values the model gives them at reset (notes/assumptions/1.md and 2.md) are
observed by no host. `replies` holds the words READs return, R45 (notes/assumptions/9.md). -/
def Obligations.ResetDrawsAreNeverObserved : Prop :=
  ∀ (events : List Event) (hs : Vector Word 8) (bytes : Vector Byte 64) (k : Nat),
    ∃ t t' : State,
      Sys2Proof.core.run k { State.reset with queue := events } = .next t ∧
      Sys2Proof.core.run k { State.reset with queue := events, hash := hs, blk := bytes } = .next t' ∧
      t'.replies = t.replies ∧ statusWord t' = statusWord t

/-! ### SHA-256 -/

/-- The functions bit by bit: Ch chooses, Maj takes the majority, and the sigma functions are XORs of rotations and shifts by
the amounts of the rules, rotation being Lean's own (spec/40_sha256.md R85 to R90, spec/00_scope.md R10). -/
def Obligations.ShaFunctionsBitByBit : Prop :=
  (∀ (x y z : Word) (i : Nat), (ch x y z).getLsbD i = if x.getLsbD i then y.getLsbD i else z.getLsbD i) ∧
  (∀ (x y z : Word) (i : Nat), (maj x y z).getLsbD i =
    decide (2 ≤ (x.getLsbD i).toNat + (y.getLsbD i).toNat + (z.getLsbD i).toNat)) ∧
  ∀ x : Word,
    bigSigma0 x = x.rotateRight 2 ^^^ x.rotateRight 13 ^^^ x.rotateRight 22 ∧
    bigSigma1 x = x.rotateRight 6 ^^^ x.rotateRight 11 ^^^ x.rotateRight 25 ∧
    smallSigma0 x = x.rotateRight 7 ^^^ x.rotateRight 18 ^^^ x >>> 3 ∧
    smallSigma1 x = x.rotateRight 17 ^^^ x.rotateRight 19 ^^^ x >>> 10

/-- The tables are what the rules say they are: K[t] the first 32 bits of the fractional part of the cube root of the (t+1)-th
prime, IV[i] of the square root of the (i+1)-th (spec/40_sha256.md R83, R84). -/
def Obligations.TablesAreRootsOfPrimes : Prop :=
  roundConstants.length = 64 ∧
  (∀ t : Nat, t < 64 → ∃ whole : Nat,
    let r := whole * 2 ^ 32 + (roundConstants.getD t 0).toNat
    r ^ 3 ≤ Nat.nth Nat.Prime t * 2 ^ 96 ∧ Nat.nth Nat.Prime t * 2 ^ 96 < (r + 1) ^ 3) ∧
  ∀ i : Index, ∃ whole : Nat,
    let r := whole * 2 ^ 32 + (wordAt initialVector i).toNat
    r ^ 2 ≤ Nat.nth Nat.Prime i.toNat * 2 ^ 64 ∧ Nat.nth Nat.Prime i.toNat * 2 ^ 64 < (r + 1) ^ 2

/-- The message schedule of a 64-byte block: 64 words, the first sixteen the block's words big-endian, each later one by the
recurrence (spec/40_sha256.md R91). -/
def Obligations.ScheduleFollowsTheRecurrence : Prop :=
  ∀ block : List Byte, block.length = 64 →
    let w := fun t => (schedule block).getD t 0
    (schedule block).length = 64 ∧
    (∀ t, t < 16 → w t = block.getD (4 * t) 0 ++ block.getD (4 * t + 1) 0 ++ block.getD (4 * t + 2) 0 ++
      block.getD (4 * t + 3) 0) ∧
    ∀ t, 16 ≤ t → t < 64 → w t = smallSigma1 (w (t - 2)) + w (t - 7) + smallSigma0 (w (t - 15)) + w (t - 16)

/-- A compression is 64 rounds: for the working states that start at H and follow the round equations with K[t] and W[t],
the result is H plus the last of them, word by word (spec/40_sha256.md R92). -/
def Obligations.CompressionIsSixtyFourRounds : Prop :=
  ∀ (hs : Vector Word 8) (block : List Byte) (a b c d e f g h : Nat → Word),
    block.length = 64 →
    a 0 = hs[0] → b 0 = hs[1] → c 0 = hs[2] → d 0 = hs[3] → e 0 = hs[4] → f 0 = hs[5] → g 0 = hs[6] → h 0 = hs[7] →
    (∀ t, t < 64 →
      let t1 := h t + bigSigma1 (e t) + ch (e t) (f t) (g t) + roundConstants.getD t 0 + (schedule block).getD t 0
      let t2 := bigSigma0 (a t) + maj (a t) (b t) (c t)
      a (t + 1) = t1 + t2 ∧ b (t + 1) = a t ∧ c (t + 1) = b t ∧ d (t + 1) = c t ∧ e (t + 1) = d t + t1 ∧
      f (t + 1) = e t ∧ g (t + 1) = f t ∧ h (t + 1) = g t) →
    compress hs block = #v[hs[0] + a 64, hs[1] + b 64, hs[2] + c 64, hs[3] + d 64, hs[4] + e 64, hs[5] + f 64,
      hs[6] + g 64, hs[7] + h 64]

/-- The padded final chunk: 64 bytes for up to 55 message bytes and 128 otherwise; the message bytes, then 0x80, then zeros,
then the length, whose eight bytes read big-endian are L (spec/40_sha256.md R98, spec/00_scope.md R11). -/
def Obligations.PaddingFillsWholeBlocks : Prop :=
  ∀ (m : List Byte) (len : Count), m.length ≤ 63 →
    (pad m len).length = (if m.length ≤ 55 then 64 else 128) ∧
    (pad m len).take m.length = m ∧ (pad m len).getD m.length 0 = 0x80 ∧
    (∀ i, m.length < i → i < (pad m len).length - 8 → (pad m len).getD i 0 = 0) ∧
    ((pad m len).drop ((pad m len).length - 8)).foldl (fun v b => v * 256 + b.toNat) 0 = len.toNat

/-- The digest a message gets: SHA_INIT, then any accesses that do not end the message, then SHA_FINAL leave the SHA-256
digest of the bytes the data writes carry, however they are split and whatever reads, key writes, NOPs, CLR_ERRs, KEY_LOADs
and erroneous accesses come between them; MODE is IDLE, DVALID 1, BLEN 0 and L the bit length modulo 2^64 (spec/40_sha256.md R100, R101,
R102, R108). The rules say so of a message of fewer than 2^61 bytes; for a longer one, of which they promise no digest
(R102), what `sha256` is, the wrapped length appended, is the model's choice (notes/assumptions/16.md). -/
def Obligations.DigestIsSha256OfTheMessage : Prop :=
  ∀ (as : List Access) (s : State), (∀ a ∈ as, keepsMessage a = true) →
    let m := as.flatMap accessBytes
    ∃ t, performAll (encode .shaInit :: as ++ [encode .shaFinal]) s = .next t ∧
      t.digest = sha256 m ∧ t.mode = .idle ∧ t.dvalid = true ∧ t.blen = 0 ∧ t.mlen = BitVec.ofNat 64 (8 * m.length)

/-- The known answer: from any state, SHA_INIT and SHA_FINAL leave the digest of the empty message (spec/40_sha256.md R110). -/
def Obligations.EmptyMessageKnownAnswer : Prop :=
  ∀ s : State, ∃ t, performAll [encode .shaInit, encode .shaFinal] s = .next t ∧
    t.digest = #v[0xe3b0c442, 0x98fc1c14, 0x9afbf4c8, 0x996fb924, 0x27ae41e4, 0x649b934c, 0xa495991b, 0x7852b855]

/-- The host procedure SHA_DIGEST(S): it reads back the eight words of the digest of S, the newest reply last read; MODE is
IDLE, DVALID 1, BLEN 0, L the bit length modulo 2^64, and ERR, KEY, KIDX, CYCNT, the DOUT fields and OVR are unchanged
(spec/30_encoding.md R81, spec/42_control.md R140). `raised` is R162's count of errors (notes/assumptions/10.md). `replies`
holds the words READs return, R45 (notes/assumptions/9.md). The rules say so for 8·|S| < 2^64; for a longer S, `sha256` with
the wrapped length appended, and so the words read back, are the model's choice (notes/assumptions/16.md). -/
def Obligations.ShaDigestProcedureReadsTheDigest : Prop :=
  ∀ (bytes : List Byte) (s : State), ∃ t,
    performAll ((shaDigestOps bytes).map encode) s = .next t ∧
    t.replies = (sha256 bytes).toList.reverse ++ s.replies ∧ t.digest = sha256 bytes ∧
    t.mode = .idle ∧ t.dvalid = true ∧ t.blen = 0 ∧ t.mlen = BitVec.ofNat 64 (8 * bytes.length) ∧
    t.err = s.err ∧ t.raised = s.raised ∧ t.key = s.key ∧ t.kidx = s.kidx ∧ t.cycnt = s.cycnt ∧ t.dout = s.dout ∧
    t.doutLen = s.doutLen ∧ t.doutValid = s.doutValid ∧ t.ovr = s.ovr

/-- SHA_INIT clears DVALID, and KEY_LOAD between SHA_INIT and SHA_FINAL raises ERR_NODIGEST, whatever the host does to the
message in progress, even though DIGEST still holds the previous digest (spec/70_reset_and_hazards.md R174). `raised` is
R162's count of errors (notes/assumptions/10.md). -/
def Obligations.KeyLoadDuringAMessageRaisesErrNoDigest : Prop :=
  ∀ (as : List Access) (s : State), (∀ a ∈ as, keepsMessage a = true) →
    ∃ t, performAll (encode .shaInit :: as) s = .next t ∧ t.dvalid = false ∧ t.digest = s.digest ∧
      exec .keyLoad t = .next { t with err := if t.err = .none then .noDigest else t.err, raised := t.raised + 1 }

/-! ### The cypher -/

/-- The cypher in bytes: CY_APPLY of any byte sequence, from any state, outputs each byte XORed with the key byte of its
place in the stream, as many bytes as came in, and reads the byte count back (spec/30_encoding.md R82, spec/41_cypher.md
R121). `replies` holds the words READs return, R45 (notes/assumptions/9.md). -/
def Obligations.CypherXorsEachByteWithItsKeyByte : Prop :=
  ∀ (bytes : List Byte) (s : State), ∃ t outs,
    performAll ((cyApplyOps bytes).map encode) s = .next t ∧
    t.replies = highHalf (BitVec.ofNat 64 bytes.length) :: lowHalf (BitVec.ofNat 64 bytes.length) ::
      (outs.reverse ++ s.replies) ∧
    outs.length = (bytesOps bytes).length ∧ cyOutput bytes outs = cypherStream s.key bytes

/-- The end state of CY_APPLY: CYCNT, KIDX, MODE, DOUT_VALID and DOUT_LEN as the length of the stream gives them; OVR, ERR,
KEY, DIGEST and DVALID unchanged (spec/42_control.md R141). `raised` is R162's count of errors (notes/assumptions/10.md). -/
def Obligations.CyApplyLeavesTheStreamPosition : Prop :=
  ∀ (bytes : List Byte) (s : State), ∃ t,
    performAll ((cyApplyOps bytes).map encode) s = .next t ∧
    t.cycnt = BitVec.ofNat 64 bytes.length ∧ t.kidx.toNat = bytes.length / 4 % 8 ∧
    t.mode = (if bytes.length % 4 ≠ 0 then .cyEnd else .cy) ∧ t.doutValid = false ∧
    t.doutLen.toNat = (if bytes.length = 0 then 0 else if bytes.length % 4 = 0 then 4 else bytes.length % 4) ∧
    t.ovr = s.ovr ∧ t.err = s.err ∧ t.raised = s.raised ∧ t.key = s.key ∧ t.digest = s.digest ∧ t.dvalid = s.dvalid

/-- The involution: two streams under the same key, each begun by CY_START, the second over the output of the first, give
back the input byte for byte, for every length (spec/41_cypher.md R125, spec/00_scope.md R18). `replies` holds the words
READs return, R45 (notes/assumptions/9.md). -/
def Obligations.CypherTwiceIsTheInput : Prop :=
  ∀ (bytes : List Byte) (s s' : State), s'.key = s.key →
    ∃ t t' outs outs',
      performAll ((cyApplyOps bytes).map encode) s = .next t ∧ t.replies.drop 2 = outs.reverse ++ s.replies ∧
      performAll ((cyApplyOps (cyOutput bytes outs)).map encode) s' = .next t' ∧
      t'.replies.drop 2 = outs'.reverse ++ s'.replies ∧
      outs.length = (bytesOps bytes).length ∧ outs'.length = (bytesOps (cyOutput bytes outs)).length ∧
      cyOutput (cyOutput bytes outs) outs' = bytes

/-- A host that does not know the block's state brings it to a known one with ABORT and CLR_ERR; everything else keeps its
value (spec/70_reset_and_hazards.md R169). -/
def Obligations.AbortThenClrErrGivesAKnownState : Prop :=
  ∀ s : State, performAll [encode .abort, encode .clrErr] s =
    .next { s with mode := .idle, blen := 0, err := .none, ovr := false }
end

