-- ==== Sys2Proof/Laws/Compress.lean ====
section
/-! SUPPORT. The schedule and the rounds of one compression, a word and a round at a time. -/

namespace Sys2Proof.Machine

@[simp] theorem roundConstants_length : roundConstants.length = 64 := by decide

/-- Extending a schedule adds one word for each step (spec/40_sha256.md R91). -/
@[simp] theorem extendSchedule_length (n : Nat) (ws : List Word) : (extendSchedule n ws).length = ws.length + n := by
  induction n generalizing ws with
  | zero => rfl
  | succ n ih =>
    simp [extendSchedule, ih]
    omega

/-- A block's schedule has 64 words (spec/40_sha256.md R91). -/
@[simp] theorem schedule_length (block : List Byte) : (schedule block).length = 64 := by
  simp [schedule]

/-- Extending a schedule keeps the words it has (spec/40_sha256.md R91). -/
theorem extendSchedule_getD {n t : Nat} {ws : List Word} (h : t < ws.length) :
    (extendSchedule n ws).getD t 0 = ws.getD t 0 := by
  induction n generalizing ws with
  | zero => rfl
  | succ n ih =>
    rw [extendSchedule, ih (by simp; omega)]
    simp [List.getD, List.getElem?_append_left h]

/-- No round has run (spec/40_sha256.md R92). -/
@[simp] theorem workingAfter_zero (hs : Vector Word 8) (block : List Byte) : workingAfter 0 hs block = startWorking hs := rfl

/-- One round more (spec/40_sha256.md R92). -/
theorem workingAfter_succ {t : Nat} (h : t < 64) (hs : Vector Word 8) (block : List Byte) :
    workingAfter (t + 1) hs block =
      compressionRound (workingAfter t hs block) (roundConstants.getD t 0) ((schedule block).getD t 0) := by
  unfold workingAfter
  rw [List.take_succ_eq_append_getElem (by simpa using h), List.foldl_append]
  simp [List.getD, h]

/-- The result of a compression, from the working state after its 64 rounds (spec/40_sha256.md R92). -/
theorem compress_of_workingAfter {hs : Vector Word 8} {block : List Byte} {x : Working}
    (h : workingAfter 64 hs block = x) :
    compress hs block = #v[hs[0] + x.a, hs[1] + x.b, hs[2] + x.c, hs[3] + x.d, hs[4] + x.e, hs[5] + x.f, hs[6] + x.g,
      hs[7] + x.h] := by
  subst h
  rfl

end Sys2Proof.Machine
end

