-- ==== Sys2Proof/Laws/Operands.lean ====
section
/-! SUPPORT. The small lemmas of the operand forms: lengths of byte sequences, words read after they are written. -/

namespace Sys2Proof.Machine

@[simp] theorem streamBytes_length (n : Nat) (w : Word) : (streamBytes n w).length = n := by
  simp [streamBytes]

@[simp] theorem be64_length (d : Count) : (be64 d).length = 8 := by
  simp [be64]

/-- The masks of the four byte counts (spec/41_cypher.md R119). -/
theorem mask_values : mask 1 = 0xFF000000#32 ∧ mask 2 = 0xFFFF0000#32 ∧ mask 3 = 0xFFFFFF00#32 ∧ mask 4 = 0xFFFFFFFF#32 := by
  decide

/-- MASK(n) bit by bit: the top `8n` bits of the word are 1 (spec/41_cypher.md R119). -/
theorem getLsbD_mask (n i : Nat) : (mask n).getLsbD i = (decide (i < 32) && decide (32 ≤ 8 * n + i)) := by
  simp only [mask, BitVec.getLsbD_not, BitVec.getLsbD_ushiftRight, BitVec.getLsbD_allOnes]
  by_cases h : 8 * n + i < 32
  · simp [h]
  · simp [h]
    omega

/-- The word just written is read back (spec/41_cypher.md R114). -/
@[simp] theorem wordAt_setWordAt_self (v : Vector Word 8) (j : Index) (w : Word) : wordAt (setWordAt v j w) j = w := by
  simp [wordAt, setWordAt]

/-- The other words keep their values (spec/41_cypher.md R114). -/
theorem wordAt_setWordAt_ne (v : Vector Word 8) {j k : Index} (h : k ≠ j) (w : Word) :
    wordAt (setWordAt v j w) k = wordAt v k := by
  have h' : j.toNat ≠ k.toNat := fun e => h (BitVec.eq_of_toNat_eq e.symm)
  simp [wordAt, setWordAt, h']

/-- What a bus address selects (spec/20_memory.md R46). -/
theorem windowOffset_cases (addr : Nat) :
    (Config.engineBase ≤ addr ∧ addr < Config.engineBase + 128 ∧
      windowOffset addr = some (BitVec.ofNat 7 (addr - Config.engineBase))) ∨
    (¬(Config.engineBase ≤ addr ∧ addr < Config.engineBase + 128) ∧ windowOffset addr = none) := by
  unfold windowOffset
  split
  · exact .inl ⟨‹_ ∧ _›.1, ‹_ ∧ _›.2, rfl⟩
  · exact .inr ⟨‹_›, rfl⟩

end Sys2Proof.Machine
end

