-- ==== Sys2Proof/Laws/State.lean ====
section
/-! SUPPORT. One lemma per field for each named update of State, so that no proof unfolds a record update. -/

namespace Sys2Proof.Machine

section reply

/-! A READ returns one word to the host (spec/20_memory.md R45). -/

variable (s : State) (v : Word)

@[simp] theorem State.reply_mode : (s.reply v).mode = s.mode := rfl
@[simp] theorem State.reply_busy : (s.reply v).busy = s.busy := rfl
@[simp] theorem State.reply_hash : (s.reply v).hash = s.hash := rfl
@[simp] theorem State.reply_blk : (s.reply v).blk = s.blk := rfl
@[simp] theorem State.reply_blen : (s.reply v).blen = s.blen := rfl
@[simp] theorem State.reply_mlen : (s.reply v).mlen = s.mlen := rfl
@[simp] theorem State.reply_digest : (s.reply v).digest = s.digest := rfl
@[simp] theorem State.reply_dvalid : (s.reply v).dvalid = s.dvalid := rfl
@[simp] theorem State.reply_key : (s.reply v).key = s.key := rfl
@[simp] theorem State.reply_kidx : (s.reply v).kidx = s.kidx := rfl
@[simp] theorem State.reply_cycnt : (s.reply v).cycnt = s.cycnt := rfl
@[simp] theorem State.reply_dout : (s.reply v).dout = s.dout := rfl
@[simp] theorem State.reply_doutLen : (s.reply v).doutLen = s.doutLen := rfl
@[simp] theorem State.reply_doutValid : (s.reply v).doutValid = s.doutValid := rfl
@[simp] theorem State.reply_ovr : (s.reply v).ovr = s.ovr := rfl
@[simp] theorem State.reply_err : (s.reply v).err = s.err := rfl
@[simp] theorem State.reply_queue : (s.reply v).queue = s.queue := rfl
@[simp] theorem State.reply_replies : (s.reply v).replies = v :: s.replies := rfl
@[simp] theorem State.reply_raised : (s.reply v).raised = s.raised := rfl
@[simp] theorem State.reply_draws : (s.reply v).draws = s.draws := rfl

end reply

section raise

/-! Raising an error (spec/60_exceptions.md R146). -/

variable (s : State) (e : Err)

@[simp] theorem State.raise_mode : (s.raise e).mode = s.mode := rfl
@[simp] theorem State.raise_busy : (s.raise e).busy = s.busy := rfl
@[simp] theorem State.raise_hash : (s.raise e).hash = s.hash := rfl
@[simp] theorem State.raise_blk : (s.raise e).blk = s.blk := rfl
@[simp] theorem State.raise_blen : (s.raise e).blen = s.blen := rfl
@[simp] theorem State.raise_mlen : (s.raise e).mlen = s.mlen := rfl
@[simp] theorem State.raise_digest : (s.raise e).digest = s.digest := rfl
@[simp] theorem State.raise_dvalid : (s.raise e).dvalid = s.dvalid := rfl
@[simp] theorem State.raise_key : (s.raise e).key = s.key := rfl
@[simp] theorem State.raise_kidx : (s.raise e).kidx = s.kidx := rfl
@[simp] theorem State.raise_cycnt : (s.raise e).cycnt = s.cycnt := rfl
@[simp] theorem State.raise_dout : (s.raise e).dout = s.dout := rfl
@[simp] theorem State.raise_doutLen : (s.raise e).doutLen = s.doutLen := rfl
@[simp] theorem State.raise_doutValid : (s.raise e).doutValid = s.doutValid := rfl
@[simp] theorem State.raise_ovr : (s.raise e).ovr = s.ovr := rfl
@[simp] theorem State.raise_err : (s.raise e).err = if s.err = .none then e else s.err := rfl
@[simp] theorem State.raise_queue : (s.raise e).queue = s.queue := rfl
@[simp] theorem State.raise_replies : (s.raise e).replies = s.replies := rfl
@[simp] theorem State.raise_raised : (s.raise e).raised = s.raised + 1 := rfl
@[simp] theorem State.raise_draws : (s.raise e).draws = s.draws := rfl

end raise

section clearErrors

/-! Ending an error episode (spec/42_control.md R138). -/

variable (s : State)

@[simp] theorem State.clearErrors_mode : (s.clearErrors).mode = s.mode := rfl
@[simp] theorem State.clearErrors_busy : (s.clearErrors).busy = s.busy := rfl
@[simp] theorem State.clearErrors_hash : (s.clearErrors).hash = s.hash := rfl
@[simp] theorem State.clearErrors_blk : (s.clearErrors).blk = s.blk := rfl
@[simp] theorem State.clearErrors_blen : (s.clearErrors).blen = s.blen := rfl
@[simp] theorem State.clearErrors_mlen : (s.clearErrors).mlen = s.mlen := rfl
@[simp] theorem State.clearErrors_digest : (s.clearErrors).digest = s.digest := rfl
@[simp] theorem State.clearErrors_dvalid : (s.clearErrors).dvalid = s.dvalid := rfl
@[simp] theorem State.clearErrors_key : (s.clearErrors).key = s.key := rfl
@[simp] theorem State.clearErrors_kidx : (s.clearErrors).kidx = s.kidx := rfl
@[simp] theorem State.clearErrors_cycnt : (s.clearErrors).cycnt = s.cycnt := rfl
@[simp] theorem State.clearErrors_dout : (s.clearErrors).dout = s.dout := rfl
@[simp] theorem State.clearErrors_doutLen : (s.clearErrors).doutLen = s.doutLen := rfl
@[simp] theorem State.clearErrors_doutValid : (s.clearErrors).doutValid = s.doutValid := rfl
@[simp] theorem State.clearErrors_ovr : (s.clearErrors).ovr = false := rfl
@[simp] theorem State.clearErrors_err : (s.clearErrors).err = .none := rfl
@[simp] theorem State.clearErrors_queue : (s.clearErrors).queue = s.queue := rfl
@[simp] theorem State.clearErrors_replies : (s.clearErrors).replies = s.replies := rfl
@[simp] theorem State.clearErrors_raised : (s.clearErrors).raised = s.raised := rfl
@[simp] theorem State.clearErrors_draws : (s.clearErrors).draws = s.draws := rfl

end clearErrors

section endBusy

/-! The engine's step (spec/20_memory.md R58). -/

variable (s : State)

@[simp] theorem State.endBusy_mode : (s.endBusy).mode = s.mode := rfl
@[simp] theorem State.endBusy_busy : (s.endBusy).busy = false := rfl
@[simp] theorem State.endBusy_hash : (s.endBusy).hash = s.hash := rfl
@[simp] theorem State.endBusy_blk : (s.endBusy).blk = s.blk := rfl
@[simp] theorem State.endBusy_blen : (s.endBusy).blen = s.blen := rfl
@[simp] theorem State.endBusy_mlen : (s.endBusy).mlen = s.mlen := rfl
@[simp] theorem State.endBusy_digest : (s.endBusy).digest = s.digest := rfl
@[simp] theorem State.endBusy_dvalid : (s.endBusy).dvalid = s.dvalid := rfl
@[simp] theorem State.endBusy_key : (s.endBusy).key = s.key := rfl
@[simp] theorem State.endBusy_kidx : (s.endBusy).kidx = s.kidx := rfl
@[simp] theorem State.endBusy_cycnt : (s.endBusy).cycnt = s.cycnt := rfl
@[simp] theorem State.endBusy_dout : (s.endBusy).dout = s.dout := rfl
@[simp] theorem State.endBusy_doutLen : (s.endBusy).doutLen = s.doutLen := rfl
@[simp] theorem State.endBusy_doutValid : (s.endBusy).doutValid = s.doutValid := rfl
@[simp] theorem State.endBusy_ovr : (s.endBusy).ovr = s.ovr := rfl
@[simp] theorem State.endBusy_err : (s.endBusy).err = s.err := rfl
@[simp] theorem State.endBusy_queue : (s.endBusy).queue = s.queue := rfl
@[simp] theorem State.endBusy_replies : (s.endBusy).replies = s.replies := rfl
@[simp] theorem State.endBusy_raised : (s.endBusy).raised = s.raised := rfl
@[simp] theorem State.endBusy_draws : (s.endBusy).draws = s.draws := rfl

end endBusy

section drawn

/-! One free value taken. -/

variable (s : State)

@[simp] theorem State.drawn_mode : (s.drawn).mode = s.mode := rfl
@[simp] theorem State.drawn_busy : (s.drawn).busy = s.busy := rfl
@[simp] theorem State.drawn_hash : (s.drawn).hash = s.hash := rfl
@[simp] theorem State.drawn_blk : (s.drawn).blk = s.blk := rfl
@[simp] theorem State.drawn_blen : (s.drawn).blen = s.blen := rfl
@[simp] theorem State.drawn_mlen : (s.drawn).mlen = s.mlen := rfl
@[simp] theorem State.drawn_digest : (s.drawn).digest = s.digest := rfl
@[simp] theorem State.drawn_dvalid : (s.drawn).dvalid = s.dvalid := rfl
@[simp] theorem State.drawn_key : (s.drawn).key = s.key := rfl
@[simp] theorem State.drawn_kidx : (s.drawn).kidx = s.kidx := rfl
@[simp] theorem State.drawn_cycnt : (s.drawn).cycnt = s.cycnt := rfl
@[simp] theorem State.drawn_dout : (s.drawn).dout = s.dout := rfl
@[simp] theorem State.drawn_doutLen : (s.drawn).doutLen = s.doutLen := rfl
@[simp] theorem State.drawn_doutValid : (s.drawn).doutValid = s.doutValid := rfl
@[simp] theorem State.drawn_ovr : (s.drawn).ovr = s.ovr := rfl
@[simp] theorem State.drawn_err : (s.drawn).err = s.err := rfl
@[simp] theorem State.drawn_queue : (s.drawn).queue = s.queue := rfl
@[simp] theorem State.drawn_replies : (s.drawn).replies = s.replies := rfl
@[simp] theorem State.drawn_raised : (s.drawn).raised = s.raised := rfl
@[simp] theorem State.drawn_draws : (s.drawn).draws = s.draws + 1 := rfl

end drawn

section setQueue

/-! The host's events to come. -/

variable (s : State) (q : List Event)

@[simp] theorem State.setQueue_mode : (s.setQueue q).mode = s.mode := rfl
@[simp] theorem State.setQueue_busy : (s.setQueue q).busy = s.busy := rfl
@[simp] theorem State.setQueue_hash : (s.setQueue q).hash = s.hash := rfl
@[simp] theorem State.setQueue_blk : (s.setQueue q).blk = s.blk := rfl
@[simp] theorem State.setQueue_blen : (s.setQueue q).blen = s.blen := rfl
@[simp] theorem State.setQueue_mlen : (s.setQueue q).mlen = s.mlen := rfl
@[simp] theorem State.setQueue_digest : (s.setQueue q).digest = s.digest := rfl
@[simp] theorem State.setQueue_dvalid : (s.setQueue q).dvalid = s.dvalid := rfl
@[simp] theorem State.setQueue_key : (s.setQueue q).key = s.key := rfl
@[simp] theorem State.setQueue_kidx : (s.setQueue q).kidx = s.kidx := rfl
@[simp] theorem State.setQueue_cycnt : (s.setQueue q).cycnt = s.cycnt := rfl
@[simp] theorem State.setQueue_dout : (s.setQueue q).dout = s.dout := rfl
@[simp] theorem State.setQueue_doutLen : (s.setQueue q).doutLen = s.doutLen := rfl
@[simp] theorem State.setQueue_doutValid : (s.setQueue q).doutValid = s.doutValid := rfl
@[simp] theorem State.setQueue_ovr : (s.setQueue q).ovr = s.ovr := rfl
@[simp] theorem State.setQueue_err : (s.setQueue q).err = s.err := rfl
@[simp] theorem State.setQueue_queue : (s.setQueue q).queue = q := rfl
@[simp] theorem State.setQueue_replies : (s.setQueue q).replies = s.replies := rfl
@[simp] theorem State.setQueue_raised : (s.setQueue q).raised = s.raised := rfl
@[simp] theorem State.setQueue_draws : (s.setQueue q).draws = s.draws := rfl

end setQueue

section issue

/-! An access made the next event. -/

variable (s : State) (a : Access)

@[simp] theorem State.issue_mode : (s.issue a).mode = s.mode := rfl
@[simp] theorem State.issue_busy : (s.issue a).busy = false := rfl
@[simp] theorem State.issue_hash : (s.issue a).hash = s.hash := rfl
@[simp] theorem State.issue_blk : (s.issue a).blk = s.blk := rfl
@[simp] theorem State.issue_blen : (s.issue a).blen = s.blen := rfl
@[simp] theorem State.issue_mlen : (s.issue a).mlen = s.mlen := rfl
@[simp] theorem State.issue_digest : (s.issue a).digest = s.digest := rfl
@[simp] theorem State.issue_dvalid : (s.issue a).dvalid = s.dvalid := rfl
@[simp] theorem State.issue_key : (s.issue a).key = s.key := rfl
@[simp] theorem State.issue_kidx : (s.issue a).kidx = s.kidx := rfl
@[simp] theorem State.issue_cycnt : (s.issue a).cycnt = s.cycnt := rfl
@[simp] theorem State.issue_dout : (s.issue a).dout = s.dout := rfl
@[simp] theorem State.issue_doutLen : (s.issue a).doutLen = s.doutLen := rfl
@[simp] theorem State.issue_doutValid : (s.issue a).doutValid = s.doutValid := rfl
@[simp] theorem State.issue_ovr : (s.issue a).ovr = s.ovr := rfl
@[simp] theorem State.issue_err : (s.issue a).err = s.err := rfl
@[simp] theorem State.issue_queue : (s.issue a).queue = .access a :: s.queue := rfl
@[simp] theorem State.issue_replies : (s.issue a).replies = s.replies := rfl
@[simp] theorem State.issue_raised : (s.issue a).raised = s.raised := rfl
@[simp] theorem State.issue_draws : (s.issue a).draws = s.draws := rfl

end issue

section platformReset

/-! The platform's reset (spec/70_reset_and_hazards.md R163). -/

variable (s : State)

@[simp] theorem State.platformReset_mode : (s.platformReset).mode = State.reset.mode := rfl
@[simp] theorem State.platformReset_busy : (s.platformReset).busy = State.reset.busy := rfl
@[simp] theorem State.platformReset_hash : (s.platformReset).hash = Config.unspecifiedHash s.draws := rfl
@[simp] theorem State.platformReset_blk : (s.platformReset).blk = Config.unspecifiedBlock s.draws := rfl
@[simp] theorem State.platformReset_blen : (s.platformReset).blen = State.reset.blen := rfl
@[simp] theorem State.platformReset_mlen : (s.platformReset).mlen = State.reset.mlen := rfl
@[simp] theorem State.platformReset_digest : (s.platformReset).digest = State.reset.digest := rfl
@[simp] theorem State.platformReset_dvalid : (s.platformReset).dvalid = State.reset.dvalid := rfl
@[simp] theorem State.platformReset_key : (s.platformReset).key = State.reset.key := rfl
@[simp] theorem State.platformReset_kidx : (s.platformReset).kidx = State.reset.kidx := rfl
@[simp] theorem State.platformReset_cycnt : (s.platformReset).cycnt = State.reset.cycnt := rfl
@[simp] theorem State.platformReset_dout : (s.platformReset).dout = State.reset.dout := rfl
@[simp] theorem State.platformReset_doutLen : (s.platformReset).doutLen = State.reset.doutLen := rfl
@[simp] theorem State.platformReset_doutValid : (s.platformReset).doutValid = State.reset.doutValid := rfl
@[simp] theorem State.platformReset_ovr : (s.platformReset).ovr = State.reset.ovr := rfl
@[simp] theorem State.platformReset_err : (s.platformReset).err = State.reset.err := rfl
@[simp] theorem State.platformReset_queue : (s.platformReset).queue = s.queue := rfl
@[simp] theorem State.platformReset_replies : (s.platformReset).replies = s.replies := rfl
@[simp] theorem State.platformReset_raised : (s.platformReset).raised = s.raised := rfl
@[simp] theorem State.platformReset_draws : (s.platformReset).draws = s.draws + 1 := rfl

end platformReset

end Sys2Proof.Machine
end

