-- ==== Sys2Proof/Laws/Ops.lean ====
section
/-! SUPPORT. What the shared operations and a step can do, said once: the turn of arbitration, an access performed, an access
suppressed, one step. -/

namespace Sys2Proof.Machine

/-- Everything arbitration can answer (spec/20_memory.md R58, R59). -/
theorem arbitrate_cases (s : State) :
    (s.queue = [] ∧ arbitrate s = .moved s.endBusy) ∨
    (∃ rest, s.queue = .reset :: rest ∧ arbitrate s = .moved (s.setQueue rest).platformReset) ∨
    (∃ a rest, s.queue = .access a :: rest ∧ s.busy = false ∧ arbitrate s = .perform a (s.setQueue rest)) ∨
    (∃ a rest, s.queue = .access a :: rest ∧ s.busy = true ∧ isStatusRead a = false ∧ arbitrate s = .moved s.endBusy) ∨
    (∃ a rest, s.queue = .access a :: rest ∧ s.busy = true ∧ isStatusRead a = true ∧
      (arbitrate s = .moved s.endBusy.drawn ∨ arbitrate s = .perform a (s.setQueue rest).drawn)) := by
  unfold arbitrate
  rcases hq : s.queue with _ | ⟨_ | _, rest⟩
  · simp
  · rename_i a
    cases hb : s.busy <;> cases hr : isStatusRead a <;> cases hf : Config.engineFirst s.draws <;> simp [hr]
  · simp

/-- A legal READ of STATUS is exactly an access that decodes to RD_STATUS (spec/20_memory.md R59). -/
theorem isStatusRead_iff (a : Access) : isStatusRead a = true ↔ decode a = .op .rdStatus := by
  simp [isStatusRead]

/-- An access that names an operation runs it (spec/30_encoding.md R79). -/
theorem perform_op {a : Access} {i : Instr} (h : decode a = .op i) (s : State) : perform a s = exec i s := by
  simp [perform, h]

/-- An access that names no operation is suppressed with its error raised (spec/60_exceptions.md R146). -/
theorem perform_reject {a : Access} {r : Reject} (h : decode a = .reject r) (s : State) :
    perform a s = .next (s.suppress a.dir r.err) := by
  simp [perform, h]

/-- Suppressing an access raises its error; a READ also returns 0 (spec/60_exceptions.md R146). -/
theorem suppress_cases (d : Dir) (e : Err) (s : State) :
    (d = .read ∧ s.suppress d e = (s.raise e).reply 0) ∨ (d = .write ∧ s.suppress d e = s.raise e) := by
  cases d
  · exact .inl ⟨rfl, rfl⟩
  · exact .inr ⟨rfl, rfl⟩

/-- Everything a step can be: a move of the engine or the platform, or an access performed. -/
theorem step_cases {s : State} {o : Host.Outcome State Fault Refusal} (h : step s = o) :
    (∃ t, arbitrate s = .moved t ∧ o = .next t) ∨ (∃ a t, arbitrate s = .perform a t ∧ perform a t = o) := by
  unfold step at h
  split at h
  · exact .inl ⟨_, ‹_›, h.symm⟩
  · exact .inr ⟨_, _, ‹_›, h⟩

end Sys2Proof.Machine
end

