-- ==== Sys2Proof/Laws/Families.lean ====
section
/-! SUPPORT. What the shared operations of the two functions can do, said once: absorbing a byte, padding, compressing blocks,
one word of the cypher, the dispatch of a data write. -/

namespace Sys2Proof.Machine

/-- Absorbing a byte either completes the block, which is compressed at once, or adds it to the bytes held
(spec/40_sha256.md R95). Nothing else of the state changes. -/
theorem absorbByte_cases (b : Byte) (s : State) :
    (s.blen = 63 ∧ absorbByte b s = { s with
      blk := s.blk.set s.blen.toNat b s.blen.isLt, blen := 0, mlen := s.mlen + 8, busy := true,
      hash := compress s.hash (s.blk.set s.blen.toNat b s.blen.isLt).toList }) ∨
    (s.blen ≠ 63 ∧ absorbByte b s = { s with
      blk := s.blk.set s.blen.toNat b s.blen.isLt, blen := s.blen + 1, mlen := s.mlen + 8 }) := by
  unfold absorbByte
  split
  · exact .inl ⟨‹_›, rfl⟩
  · exact .inr ⟨‹_›, rfl⟩

@[simp] theorem absorbBytes_nil (s : State) : absorbBytes [] s = s := rfl

@[simp] theorem absorbBytes_cons (b : Byte) (bytes : List Byte) (s : State) :
    absorbBytes (b :: bytes) s = absorbBytes bytes (absorbByte b s) := rfl

/-- Absorbing bytes in two parts is absorbing them in one (spec/40_sha256.md R101). -/
theorem absorbBytes_append (xs ys : List Byte) (s : State) :
    absorbBytes (xs ++ ys) s = absorbBytes ys (absorbBytes xs s) := by
  simp [absorbBytes]

/-- Absorbing bytes leaves everything but BLK, BLEN, L, H and BUSY as it was (spec/10_state.md R43). -/
theorem absorbBytes_frame (bytes : List Byte) (s : State) :
    absorbBytes bytes s = { s with
      blk := (absorbBytes bytes s).blk, blen := (absorbBytes bytes s).blen, mlen := (absorbBytes bytes s).mlen,
      hash := (absorbBytes bytes s).hash, busy := (absorbBytes bytes s).busy } := by
  induction bytes generalizing s with
  | nil => rfl
  | cons b bytes ih =>
    rw [absorbBytes_cons, ih]
    rcases absorbByte_cases b s with ⟨-, h⟩ | ⟨-, h⟩ <;> rw [h]

/-- The bytes held are as many as BLEN says (spec/10_state.md R26). -/
@[simp] theorem held_length (s : State) : s.held.length = s.blen.toNat := by
  have := s.blen.isLt
  simp [State.held]
  omega

/-- A message's last bytes padded into one block (spec/40_sha256.md R98). -/
theorem pad_short {m : List Byte} (h : m.length ≤ 55) (len : Count) :
    pad m len = m ++ [0x80] ++ List.replicate (55 - m.length) 0 ++ be64 len := by
  simp [pad, h]

/-- A message's last bytes padded into two blocks (spec/40_sha256.md R98). -/
theorem pad_long {m : List Byte} (h : 56 ≤ m.length) (len : Count) :
    pad m len = m ++ [0x80] ++ List.replicate (63 - m.length) 0 ++ List.replicate 56 0 ++ be64 len := by
  rw [pad, if_neg (by omega)]

@[simp] theorem compressBlocks_zero (hs : Vector Word 8) (bytes : List Byte) : compressBlocks 0 hs bytes = hs := rfl

@[simp] theorem compressBlocks_succ (n : Nat) (hs : Vector Word 8) (bytes : List Byte) :
    compressBlocks (n + 1) hs bytes = compressBlocks n (compress hs (bytes.take 64)) (bytes.drop 64) := rfl

section cyXor

/-! One word of a cypher stream, field by field (spec/41_cypher.md R120). -/

variable (n : Nat) (w : Word) (s : State)

@[simp] theorem cyXor_busy : (cyXor n w s).busy = s.busy := rfl
@[simp] theorem cyXor_hash : (cyXor n w s).hash = s.hash := rfl
@[simp] theorem cyXor_blk : (cyXor n w s).blk = s.blk := rfl
@[simp] theorem cyXor_blen : (cyXor n w s).blen = s.blen := rfl
@[simp] theorem cyXor_mlen : (cyXor n w s).mlen = s.mlen := rfl
@[simp] theorem cyXor_digest : (cyXor n w s).digest = s.digest := rfl
@[simp] theorem cyXor_dvalid : (cyXor n w s).dvalid = s.dvalid := rfl
@[simp] theorem cyXor_key : (cyXor n w s).key = s.key := rfl
@[simp] theorem cyXor_err : (cyXor n w s).err = s.err := rfl
@[simp] theorem cyXor_queue : (cyXor n w s).queue = s.queue := rfl
@[simp] theorem cyXor_replies : (cyXor n w s).replies = s.replies := rfl
@[simp] theorem cyXor_raised : (cyXor n w s).raised = s.raised := rfl
@[simp] theorem cyXor_draws : (cyXor n w s).draws = s.draws := rfl
@[simp] theorem cyXor_ovr : (cyXor n w s).ovr = (s.ovr || s.doutValid) := rfl
@[simp] theorem cyXor_dout : (cyXor n w s).dout = ((w ^^^ wordAt s.key s.kidx) &&& mask n) := rfl
@[simp] theorem cyXor_doutLen : (cyXor n w s).doutLen = (BitVec.ofNat 3 n) := rfl
@[simp] theorem cyXor_doutValid : (cyXor n w s).doutValid = true := rfl
@[simp] theorem cyXor_cycnt : (cyXor n w s).cycnt = (s.cycnt + BitVec.ofNat 64 n) := rfl
@[simp] theorem cyXor_kidx : (cyXor n w s).kidx = (if n = 4 then s.kidx + 1 else s.kidx) := rfl
@[simp] theorem cyXor_mode : (cyXor n w s).mode = (if n = 4 then s.mode else .cyEnd) := rfl

end cyXor

/-- A data write by MODE (spec/30_encoding.md R78). -/
theorem dataWrite_cases (n : Nat) (w : Word) (s : State) :
    (s.mode = .sha ∧ dataWrite n w s = shaAbsorb n w s) ∨ (s.mode = .cy ∧ dataWrite n w s = cyXor n w s) ∨
    ((s.mode = .idle ∨ s.mode = .cyEnd) ∧ dataWrite n w s = s.raise .seq) := by
  unfold dataWrite
  cases s.mode <;> simp

/-- SHA_FINAL by MODE (spec/40_sha256.md R99, spec/30_encoding.md R77). -/
theorem execShaFinal_cases (s : State) :
    (s.mode = .sha ∧ execShaFinal s = .next { s with
      hash := finalHash s, digest := finalHash s, dvalid := true, blen := 0, mode := .idle, busy := true,
      blk := Config.unspecifiedBlock s.draws, draws := s.draws + 1 }) ∨
    (s.mode ≠ .sha ∧ execShaFinal s = .next (s.raise .seq)) := by
  unfold execShaFinal
  cases s.mode <;> simp

/-- KEY_LOAD by DVALID (spec/41_cypher.md R116). -/
theorem execKeyLoad_cases (s : State) :
    (s.dvalid = true ∧ execKeyLoad s = .next { s with key := s.digest }) ∨
    (s.dvalid = false ∧ execKeyLoad s = .next (s.raise .noDigest)) := by
  unfold execKeyLoad
  cases s.dvalid <;> simp

end Sys2Proof.Machine
end

