-- ==== Sys2Proof/Laws/PerInstr.lean ====
section
/-! SUPPORT. A fact about every operation as syntax, one lemma per constructor: the access that it is stands in the access map
of spec/30_encoding.md R71. -/

namespace Sys2Proof.Laws

/-- The access of the operation passes every check of spec/60_exceptions.md R148, items 1 to 3, as WellFormed.lean writes
them from the map. -/
def EncodeLegal.Statement (i : Instr) : Prop := (encode i).wellFormed = true

/-- A WRITE of an aligned, mapped offset other than CMD is legal with every data word (spec/30_encoding.md R73). -/
theorem busWrite_wellFormed {off : Offset} (w : Word)
    (h : (busWrite off 0).wellFormed = true) (hc : (busWrite off 0).code ≠ 0x84) : (busWrite off w).wellFormed = true := by
  have hw : (busWrite off w).code = (busWrite off 0).code := rfl
  simp only [Access.wellFormed, Access.sizeOk, Access.aligned, Access.mapped, Access.commandOk, hw, Bool.and_eq_true,
    Bool.or_eq_true, bne_iff_ne] at h ⊢
  exact ⟨h.1, .inl hc⟩

theorem EncodeLegal.nop : EncodeLegal.Statement .nop := by
  unfold EncodeLegal.Statement
  decide

theorem EncodeLegal.shaInit : EncodeLegal.Statement .shaInit := by
  unfold EncodeLegal.Statement
  decide

theorem EncodeLegal.shaFinal : EncodeLegal.Statement .shaFinal := by
  unfold EncodeLegal.Statement
  decide

theorem EncodeLegal.keyLoad : EncodeLegal.Statement .keyLoad := by
  unfold EncodeLegal.Statement
  decide

theorem EncodeLegal.cyStart : EncodeLegal.Statement .cyStart := by
  unfold EncodeLegal.Statement
  decide

theorem EncodeLegal.abort : EncodeLegal.Statement .abort := by
  unfold EncodeLegal.Statement
  decide

theorem EncodeLegal.clrErr : EncodeLegal.Statement .clrErr := by
  unfold EncodeLegal.Statement
  decide

theorem EncodeLegal.rdId : EncodeLegal.Statement .rdId := by
  unfold EncodeLegal.Statement
  decide

theorem EncodeLegal.rdStatus : EncodeLegal.Statement .rdStatus := by
  unfold EncodeLegal.Statement
  decide

theorem EncodeLegal.rdDout : EncodeLegal.Statement .rdDout := by
  unfold EncodeLegal.Statement
  decide

theorem EncodeLegal.rdCycntLo : EncodeLegal.Statement .rdCycntLo := by
  unfold EncodeLegal.Statement
  decide

theorem EncodeLegal.rdCycntHi : EncodeLegal.Statement .rdCycntHi := by
  unfold EncodeLegal.Statement
  decide

theorem EncodeLegal.rdMlenLo : EncodeLegal.Statement .rdMlenLo := by
  unfold EncodeLegal.Statement
  decide

theorem EncodeLegal.rdMlenHi : EncodeLegal.Statement .rdMlenHi := by
  unfold EncodeLegal.Statement
  decide

theorem EncodeLegal.rdDigest (j : Index) : EncodeLegal.Statement (.rdDigest j) := by
  unfold EncodeLegal.Statement
  revert j
  decide

theorem EncodeLegal.rdKey (j : Index) : EncodeLegal.Statement (.rdKey j) := by
  unfold EncodeLegal.Statement
  revert j
  decide

theorem EncodeLegal.wrKey (j : Index) (w : Word) : EncodeLegal.Statement (.wrKey j w) := by
  have h : ∀ k : Index, (busWrite (arrayOffset 0b11#2 k) 0).wellFormed = true ∧
      (busWrite (arrayOffset 0b11#2 k) 0).code ≠ 0x84 := by decide
  exact busWrite_wellFormed w (h j).1 (h j).2

theorem EncodeLegal.wrDin1 (w : Word) : EncodeLegal.Statement (.wrDin1 w) :=
  busWrite_wellFormed (off := 0x10) w (by decide) (by decide)

theorem EncodeLegal.wrDin2 (w : Word) : EncodeLegal.Statement (.wrDin2 w) :=
  busWrite_wellFormed (off := 0x14) w (by decide) (by decide)

theorem EncodeLegal.wrDin3 (w : Word) : EncodeLegal.Statement (.wrDin3 w) :=
  busWrite_wellFormed (off := 0x18) w (by decide) (by decide)

theorem EncodeLegal.wrDin4 (w : Word) : EncodeLegal.Statement (.wrDin4 w) :=
  busWrite_wellFormed (off := 0x1C) w (by decide) (by decide)

end Sys2Proof.Laws
end

