-- ==== Sys2Proof/Tests/Slice0.lean ====
section
/-! SUPPORT. Tests of the model: ill-formed accesses refused, words written out from the spec's encodings, the vectors of
spec/95_test_vectors.md, and for each obligation with hypotheses a state and operands that meet them. -/

namespace Sys2Proof.Tests

open Sys2Proof.Machine Sys2Proof.Safety

/-! ### Helpers -/

/-- The state that an outcome answers, if it answers one. -/
def nextOf (o : Result) : Option State :=
  match o with
  | .next t => some t
  | .fault _ => none
  | .refused _ => none

/-- An operation run from reset with a few fields set by the caller. -/
def ran (i : Instr) (s : State) : State := (nextOf (exec i s)).getD State.reset

/-- Operations run one after another. -/
def ranAll (is : List Instr) (s : State) : State := is.foldl (fun t i => ran i t) s

/-- An access performed. -/
def performed (a : Access) (s : State) : State := (nextOf (perform a s)).getD State.reset

/-- A message in progress with `n` bytes of 0x61 held (V-SHA). -/
def absorbing (n : BitVec 6) : State :=
  { State.reset with
    mode := .sha, hash := initialVector, blen := n, mlen := 8 * n.setWidth 64,
    blk := Vector.replicate 64 0x61 }

/-- The digest of the empty message (S1), the key of V-CY1. -/
def emptyDigest : Vector Word 8 :=
  #v[0xe3b0c442, 0x98fc1c14, 0x9afbf4c8, 0x996fb924, 0x27ae41e4, 0x649b934c, 0xa495991b, 0x7852b855]

/-- A cypher stream under the key of V-CY1 with the index given. -/
def streaming (k : BitVec 3) : State := { State.reset with mode := .cy, key := emptyDigest, kidx := k }

/-- A cypher stream that a two-byte word has ended (V-CY4). -/
def ended : State := ranAll [.cyStart, .wrDin2 0xabcd0000] State.reset

/-- The 64-byte block of "abc" (V-SCHED). -/
def abcBlock : List Byte := [0x61, 0x62, 0x63, 0x80] ++ List.replicate 59 0 ++ [0x18]

/-! ### Ill-formed accesses are refused (spec/20_memory.md R49 to R52, spec/30_encoding.md R70) -/

theorem test_wellFormed_size :
    (⟨.write, 0x60, 2, 0x1234⟩ : Access).wellFormed = false ∧
    decode ⟨.write, 0x60, 2, 0x1234⟩ = .reject .wrongSize := by decide

theorem test_wellFormed_alignment :
    (⟨.read, 0x02, 4, 0⟩ : Access).wellFormed = false ∧ decode ⟨.read, 0x02, 4, 0⟩ = .reject .misaligned := by decide

theorem test_wellFormed_map :
    ([(⟨.read, 0x0C, 4, 0⟩ : Access), ⟨.write, 0x2C, 4, 0⟩, ⟨.read, 0x38, 4, 0⟩, ⟨.write, 0x3C, 4, 0⟩, ⟨.read, 0x04, 4, 0⟩,
      ⟨.read, 0x1C, 4, 0⟩, ⟨.write, 0x08, 4, 0xffffffff⟩, ⟨.write, 0x5C, 4, 0⟩].map fun a => (a.wellFormed, decode a)) =
    [(false, .reject .reservedOffset), (false, .reject .reservedOffset), (false, .reject .reservedOffset),
      (false, .reject .reservedOffset), (false, .reject .readOfWriteOnly), (false, .reject .readOfWriteOnly),
      (false, .reject .writeOfReadOnly), (false, .reject .writeOfReadOnly)] := by decide

theorem test_wellFormed_command :
    ([0x00000107, 0x00000007, 0x000000FF, 0x80000000].map fun w =>
      ((busWrite 0x04 w).wellFormed, decode (busWrite 0x04 w))) =
    [(false, .reject .reservedBits), (false, .reject .reservedOpcode), (false, .reject .reservedOpcode),
      (false, .reject .reservedBits)] := by decide

/-- The checks come in the order of R148: a CMD write of size 2 is ERR_BUS whatever its word. -/
theorem test_error_priority : (performed ⟨.write, 0x04, 2, 0x00000002⟩ State.reset).err = .bus := by decide

/-! ### Words written out from the spec's encodings (spec/30_encoding.md R68 to R71) -/

theorem test_decode_commands :
    ([0b00000000000000000000000000000000#32, 0b00000000000000000000000000000001#32,
      0b00000000000000000000000000000010#32, 0b00000000000000000000000000000011#32,
      0b00000000000000000000000000000100#32, 0b00000000000000000000000000000101#32,
      0b00000000000000000000000000000110#32].map fun w => decode ⟨.write, 0b0000100#7, 4, w⟩) =
    [.op .nop, .op .shaInit, .op .shaFinal, .op .keyLoad, .op .cyStart, .op .abort, .op .clrErr] := by decide

theorem test_decode_reads :
    ([0b0000000#7, 0b0001000#7, 0b0100000#7, 0b0100100#7, 0b0101000#7, 0b0110000#7, 0b0110100#7].map fun off =>
      decode ⟨.read, off, 4, 0⟩) =
    [.op .rdId, .op .rdStatus, .op .rdDout, .op .rdCycntLo, .op .rdCycntHi, .op .rdMlenLo, .op .rdMlenHi] := by decide

theorem test_decode_arrays :
    decode ⟨.read, 0b1000000#7, 4, 0⟩ = .op (.rdDigest 0) ∧ decode ⟨.read, 0b1011100#7, 4, 0⟩ = .op (.rdDigest 7) ∧
    decode ⟨.read, 0b1100100#7, 4, 0⟩ = .op (.rdKey 1) ∧ decode ⟨.read, 0b1111000#7, 4, 0⟩ = .op (.rdKey 6) ∧
    decode ⟨.write, 0b1100000#7, 4, 0xcafef00d⟩ = .op (.wrKey 0 0xcafef00d) ∧
    decode ⟨.write, 0b1110100#7, 4, 0x00000001⟩ = .op (.wrKey 5 0x00000001) := by decide

theorem test_decode_data_writes :
    decode ⟨.write, 0b0010000#7, 4, 0x61000000⟩ = .op (.wrDin1 0x61000000) ∧
    decode ⟨.write, 0b0010100#7, 4, 0x61620000⟩ = .op (.wrDin2 0x61620000) ∧
    decode ⟨.write, 0b0011000#7, 4, 0x61626300⟩ = .op (.wrDin3 0x61626300) ∧
    decode ⟨.write, 0b0011100#7, 4, 0xffffffff⟩ = .op (.wrDin4 0xffffffff) := by decide

theorem test_tableWord_commands :
    (List.range 8).map (decodeTableWord 32) =
    [some .nop, some .shaInit, some .shaFinal, some .keyLoad, some .cyStart, some .abort, some .clrErr, none] := by decide

theorem test_tableWord_accesses :
    [0b00000000, 0b00001000, 0b00100000, 0b00100100, 0b00101000, 0b00110000, 0b00110100, 0b01001100, 0b01111100, 0b11110100,
      0b10010000, 0b10010100, 0b10011000, 0b10011100, 0b10000000].map (decodeTableWord 8) =
    [some .rdId, some .rdStatus, some .rdDout, some .rdCycntLo, some .rdCycntHi, some .rdMlenLo, some .rdMlenHi,
      some (.rdDigest 3), some (.rdKey 7), some (.wrKey 5 0), some (.wrDin1 0), some (.wrDin2 0), some (.wrDin3 0),
      some (.wrDin4 0), none] := by decide

theorem test_withFetchWord_runs :
    (nextOf (step (State.reset.withFetchWord 32 1))).map statusWord = some 0x00000001 ∧
    (nextOf (step (State.reset.withFetchWord 8 0))).map (·.replies) = some [0x53484132] := by decide

/-! ### SHA-256 (spec/95_test_vectors.md V-FN, V-SCHED, V-ROUND, V-SHA, V-MIDWORD) -/

theorem test_sigmas :
    (smallSigma0 0x6a09e667, smallSigma1 0x6a09e667, bigSigma0 0x6a09e667, bigSigma1 0x6a09e667) =
      (0xba0cf582, 0xcfe5da3c, 0xce20b47e, 0x55b65510) ∧
    (smallSigma0 0x80000000, smallSigma1 0x80000000, bigSigma0 0x80000000, bigSigma1 0x80000000) =
      (0x11002000, 0x00205000, 0x20040200, 0x02100040) := by decide

theorem test_ch_maj :
    ch 0x510e527f 0x9b05688c 0x1f83d9ab = 0x1f85c98c ∧ maj 0x510e527f 0x9b05688c 0x1f83d9ab = 0x1b0758af := by decide

theorem test_schedule_abc :
    [0, 15, 16, 17, 18, 19, 63].map (fun t => (schedule abcBlock).getD t 0) =
    [0x61626380, 0x00000018, 0x61626380, 0x000f0000, 0x7da86405, 0x600003c6, 0x12b1edeb] := by decide +kernel

theorem test_rounds_abc :
    workingAfter 1 initialVector abcBlock =
      ⟨0x5d6aebcd, 0x6a09e667, 0xbb67ae85, 0x3c6ef372, 0xfa2a4622, 0x510e527f, 0x9b05688c, 0x1f83d9ab⟩ ∧
    workingAfter 64 initialVector abcBlock =
      ⟨0x506e3058, 0xd39a2165, 0x04d24d6c, 0xb85e2ce9, 0x5ef50f24, 0xfb121210, 0x948d25b6, 0x961f4894⟩ := by decide +kernel

/-- SHA_INIT leaves the DOUT fields as they are (R94). -/
theorem test_shaInit_status : statusWord (ran .shaInit ended) = 0x00000211 := by decide

theorem test_shaFinal_abc :
    ((ranAll [.shaInit, .wrDin3 0x61626300] State.reset).mlen, finalHash (ranAll [.shaInit, .wrDin3 0x61626300] State.reset)) =
    (24, #v[0xba7816bf, 0x8f01cfea, 0x414140de, 0x5dae2223, 0xb00361a3, 0x96177a9c, 0xb410ff61, 0xf20015ad]) := by
  decide +kernel

/-- 56 bytes: the shortest final chunk of two blocks (V-SHA, n = 56). -/
theorem test_shaFinal_two_blocks :
    wordAt (ran .shaFinal (absorbing 56)).digest 0 = 0xb35439a4 ∧
    wordAt (ran .shaFinal (absorbing 56)).digest 7 = 0x6ec6738a := by decide +kernel

theorem test_wrDin1_absorbs : statusWord (ran (.wrDin1 0x61000000) (absorbing 62)) = 0x003f0001 := by decide

/-- V-SPLIT: the bytes beyond the count are not absorbed. -/
theorem test_wrDin1_ignores_low_bytes : (ran (.wrDin1 0x63ffffff) (absorbing 2)).held = [0x61, 0x61, 0x63] := by decide

theorem test_wrDin2_absorbs : statusWord (ran (.wrDin2 0x61610000) (absorbing 60)) = 0x003e0001 := by decide

theorem test_wrDin3_absorbs : statusWord (ran (.wrDin3 0x61626300) (absorbing 0)) = 0x00030001 := by decide

/-- V-MIDWORD: the block is completed inside one data write. -/
theorem test_wrDin4_midword :
    statusWord (ran (.wrDin4 0x62626262) (absorbing 62)) = 0x00020005 ∧
    (ran (.wrDin4 0x62626262) (absorbing 62)).mlen = 0x210 ∧
    (ran (.wrDin4 0x62626262) (absorbing 62)).held = [0x62, 0x62] := by decide +kernel

/-- The digest of program P4, from the state after its line 18. -/
theorem test_midword_digest :
    wordAt (finalHash (ran (.wrDin4 0x62626262) (absorbing 62))) 0 = 0x5281e468 ∧
    wordAt (finalHash (ran (.wrDin4 0x62626262) (absorbing 62))) 7 = 0x70d2aba6 := by decide +kernel

/-- R102: L wraps modulo 2^64 and no error is raised. -/
theorem test_length_wraps :
    (ran (.wrDin1 0) { absorbing 0 with mlen := 0xfffffffffffffff8 }).mlen = 0 ∧
    (ran (.wrDin1 0) { absorbing 0 with mlen := 0xfffffffffffffff8 }).err = .none := by decide

/-! ### The cypher (V-CY1 to V-CY4, P2, P5) -/

theorem test_cyStart_status : statusWord (ran .cyStart ended) = 0x00000002 := by decide

theorem test_wrDin3_xors :
    (ran (.wrDin3 0x000102ff) (streaming 0)).dout = 0xe3b1c600 ∧ statusWord (ran (.wrDin3 0x000102ff) (streaming 0)) = 0x00000313 := by
  decide

theorem test_wrDin4_xors_and_rotates :
    (ran (.wrDin4 0) (streaming 7)).dout = 0x7852b855 ∧ statusWord (ran (.wrDin4 0) (streaming 7)) = 0x00000412 := by decide

/-- V-CY3: the unread result is lost and OVR is set. -/
theorem test_overrun :
    statusWord (ranAll [.wrDin4 0x01020304, .wrDin4 0x05060708] (streaming 0)) = 0x00002432 ∧
    (ranAll [.wrDin4 0x01020304, .wrDin4 0x05060708, .rdDout] (streaming 0)).replies = [0x9dfa1b1c] ∧
    statusWord (ranAll [.wrDin4 0x01020304, .wrDin4 0x05060708, .rdDout, .clrErr] (streaming 0)) = 0x00002402 := by decide

/-- V-CY4: a key of zeros copies, and a short word ends the stream. -/
theorem test_wrDin2_short_word :
    ended.dout = 0xabcd0000 ∧ statusWord ended = 0x00000213 ∧ ended.cycnt = 2 := by decide

theorem test_rdDout_clears_valid : (ran .rdDout ended).replies = [0xabcd0000] ∧ statusWord (ran .rdDout ended) = 0x00000203 := by
  decide

theorem test_data_write_after_the_end :
    statusWord (ranAll [.rdDout, .wrDin4 0x11111111] ended) = 0x03000203 ∧
    (ran (.wrDin4 0x11111111) ended).cycnt = 2 := by decide

/-- P2: the key is taken from a digest. -/
theorem test_keyLoad_copies :
    (ran .keyLoad { State.reset with dvalid := true, digest := emptyDigest }).key = emptyDigest := by decide

theorem test_keyLoad_without_digest :
    statusWord (ran .keyLoad { State.reset with digest := emptyDigest }) = 0x04000000 ∧
    (ran .keyLoad { State.reset with digest := emptyDigest }).key = State.reset.key := by decide

theorem test_wrKey_one_word :
    (ran (.wrKey 7 0xdeadbeef) (streaming 0)).key =
    #v[0xe3b0c442, 0x98fc1c14, 0x9afbf4c8, 0x996fb924, 0x27ae41e4, 0x649b934c, 0xa495991b, 0xdeadbeef] := by decide

/-- V-CY1, length 5: the operations of CY_APPLY and its output bytes. -/
theorem test_cyApply_five_bytes :
    (ranAll (cyApplyOps [0, 1, 2, 3, 4]) (streaming 3)).replies = [0, 5, 0x9c000000, 0xe3b1c641] ∧
    cyOutput [0, 1, 2, 3, 4] [0xe3b1c641, 0x9c000000] = [0xe3, 0xb1, 0xc6, 0x41, 0x9c] ∧
    statusWord (ranAll (cyApplyOps [0, 1, 2, 3, 4]) (streaming 3)) = 0x00001103 := by decide

/-! ### Control and errors (V-CTRL, V-ERR, P3) -/

theorem test_rdId : (ran .rdId State.reset).replies = [0x53484132] := by decide

theorem test_rdStatus : (ran .rdStatus ended).replies = [0x00000213] := by decide

theorem test_rdCycnt :
    (ran .rdCycntLo { State.reset with cycnt := 0x123456789abcdef0 }).replies = [0x9abcdef0] ∧
    (ran .rdCycntHi { State.reset with cycnt := 0x123456789abcdef0 }).replies = [0x12345678] := by decide

theorem test_rdMlen :
    (ran .rdMlenLo { State.reset with mlen := 0x0000000100000210 }).replies = [0x00000210] ∧
    (ran .rdMlenHi { State.reset with mlen := 0x0000000100000210 }).replies = [0x00000001] := by decide

theorem test_rdDigest_rdKey :
    (ran (.rdDigest 1) { State.reset with digest := emptyDigest }).replies = [0x98fc1c14] ∧
    (ran (.rdKey 6) (streaming 0)).replies = [0xa495991b] := by decide

theorem test_nop : ran .nop ended = ended := by decide

theorem test_abort :
    statusWord (ran .abort (absorbing 3)) = 0x00000000 ∧ statusWord (ranAll [.rdDout, .abort] ended) = 0x00000200 := by decide

theorem test_clrErr : statusWord (ran .clrErr { ended with err := .seq, ovr := true }) = 0x00000213 := by decide

theorem test_data_write_in_idle : statusWord (ran (.wrDin4 0x01020304) State.reset) = 0x03000000 := by decide

/-- P3, lines 4 and 5: the first error is kept. -/
theorem test_first_error_is_kept :
    statusWord (performed (busWrite 0x04 0x00000107) State.reset) = 0x02000000 ∧
    statusWord (performed (busWrite 0x04 0x00000107) { State.reset with err := .seq }) = 0x03000000 := by decide

/-- P3, lines 10 to 14: suppressed accesses; a READ returns 0. -/
theorem test_suppressed_accesses :
    (performed ⟨.read, 0x02, 4, 0⟩ State.reset).replies = [0] ∧
    statusWord (performed (busWrite 0x08 0xffffffff) State.reset) = 0x01000000 ∧
    (performed ⟨.write, 0x60, 2, 0x1234⟩ State.reset).key = State.reset.key := by decide

/-- P1, line 7, and R59: in a busy period a KEY_LOAD waits for the engine's step. -/
theorem test_hold :
    (nextOf (step { State.reset with busy := true, queue := [.access (encode .keyLoad)] })).map (fun t => (t.busy, t.err, t.queue)) =
    some (false, .none, [.access (encode .keyLoad)]) := by decide

theorem test_reset_event :
    (nextOf (step { ended with busy := true, queue := [.reset] })).map statusWord = some 0 := by decide

/-! ### Witnesses: for each obligation with hypotheses, a state and operands that meet them all -/

/-- A host about to issue an access, with a busy period in progress or not. -/
def facing (busy : Bool) (a : Access) : State := { ended with busy := busy, queue := [.access a, .reset] }

/-- A state a step answers. -/
def stepped (s : State) : State := (nextOf (step s)).getD State.reset

theorem witness_StepRunsTheDecodedOperation :
    (facing false (encode .shaInit)).queue = .access (encode .shaInit) :: [.reset] ∧
    (facing false (encode .shaInit)).busy = false ∧ decode (encode .shaInit) = .op .shaInit := by decide

theorem witness_FetchedTableWordRuns :
    decodeTableWord 32 6 = some .clrErr ∧ decodeTableWord 8 0x7C = some (.rdKey 7) ∧ decodeTableWord 8 0xE0 = some (.wrKey 0 0) := by
  decide

theorem witness_BusyPeriodHoldsAccesses :
    (facing true (encode .rdDout)).busy = true ∧
    (facing true (encode .rdDout)).queue = .access (encode .rdDout) :: [.reset] ∧ decode (encode .rdDout) ≠ .op .rdStatus ∧
    (facing true (encode .rdStatus)).busy = true ∧
    (facing true (encode .rdStatus)).queue = .access (encode .rdStatus) :: [.reset] ∧
    decode (encode .rdStatus) = .op .rdStatus ∧
    decode ⟨.read, 0x08, 2, 0⟩ ≠ .op .rdStatus := by decide

theorem witness_EngineEndsTheBusyPeriodAlone :
    ({ ended with busy := true } : State).queue = [] ∧ ({ ended with busy := true } : State).busy = true ∧ ended.queue = [] := by
  decide

theorem witness_IllegalAccessIsSuppressed :
    (facing false ⟨.read, 0x7E, 4, 0⟩).queue = .access ⟨.read, 0x7E, 4, 0⟩ :: [.reset] ∧
    (facing false ⟨.read, 0x7E, 4, 0⟩).busy = false ∧ (⟨.read, 0x7E, 4, 0⟩ : Access).wellFormed = false ∧
    (facing false (busWrite 0x04 7)).queue = .access (busWrite 0x04 7) :: [.reset] ∧
    (busWrite 0x04 7).wellFormed = false ∧ (busWrite 0x04 6).wellFormed = true := by decide

theorem witness_ResetGivesEveryElementItsValue :
    ({ ended with busy := true, queue := [.reset, .reset] } : State).queue = .reset :: [.reset] := by decide

theorem witness_BusyPeriodAlwaysEnds :
    (facing true (encode .rdStatus)).busy = true ∧ ({ ended with busy := true } : State).busy = true := by decide

theorem witness_BusyPeriodsNeedNoSoftwareWait :
    ({ ended with busy := true, queue := [encode .abort, busRead 0x0C].map .access } : State).queue =
      [encode .abort, busRead 0x0C].map .access ∧
    ∀ a ∈ [encode .abort, busRead 0x0C], decode a ≠ .op .rdStatus := by decide

theorem witness_DecodeDeterminesTheAccess : decode ⟨.read, 0x7C, 4, 0xffffffff⟩ = .op (.rdKey 7) := by decide

theorem witness_DecodeAcceptsExactlyTheMap :
    (busWrite 0x04 6).wellFormed = true ∧ (busWrite 0x04 7).wellFormed = false ∧ (busRead 0x7C).wellFormed = true ∧
    (⟨.read, 0x7D, 4, 0⟩ : Access).wellFormed = false ∧ (⟨.read, 0x7C, 3, 0⟩ : Access).wellFormed = false := by decide

/-- The first address above the window; an address below it exists unless the base, which the spec leaves open, is 0. -/
theorem witness_WindowSelectsOffsets : Config.engineBase + 0x7F < Config.engineBase + 0x80 := by omega

theorem witness_ReservedBitsRefused :
    (0x106 : Word).toNat % 256 = 6 ∧ 256 ≤ (0x106 : Word).toNat ∧ (0xffffff00 : Word).toNat % 256 = 0 ∧
    256 ≤ (0xffffff00 : Word).toNat := by decide

/-- ERR cleared by CLR_ERR, OVR by the platform's reset. -/
theorem witness_ClrErrAloneClearsErrAndOvr :
    (nextOf (step { facing false (encode .clrErr) with err := .bus })).map (·.err) = some .none ∧
    (nextOf (step { ended with ovr := true, queue := [.reset] })).map (·.ovr) = some false := by decide

theorem witness_ShaFinalPublishesTheDigest :
    (absorbing 55).mode = .sha ∧ (absorbing 55).blen.toNat = 55 ∧ (absorbing 56).mode = .sha ∧
    (absorbing 56).blen.toNat = 56 ∧ (streaming 0).mode ≠ .sha := by decide

theorem witness_KeyLoadCopiesAValidDigest :
    ({ ended with dvalid := true, digest := emptyDigest } : State).dvalid = true ∧ ended.dvalid = false := by decide

theorem witness_KeyWriteStoresOneWord : (0 : Index) ≠ 7 := by decide

theorem witness_StreamBytesAreBigEndian : 4 ≤ 4 ∧ 31 < 32 := by decide

theorem witness_IgnoredBytesHaveNoEffect :
    (1, Instr.wrDin1 0x61000000, Instr.wrDin1 0x61ffffff) ∈
      [(1, Instr.wrDin1 0x61000000, Instr.wrDin1 0x61ffffff), (2, .wrDin2 0x61000000, .wrDin2 0x61ffffff),
        (3, .wrDin3 0x61000000, .wrDin3 0x61ffffff)] ∧
    (0x61000000 : Word).toNat / 2 ^ (32 - 8 * 1) = (0x61ffffff : Word).toNat / 2 ^ (32 - 8 * 1) ∧
    (0x61626300 : Word).toNat / 2 ^ (32 - 8 * 3) = (0x616263ff : Word).toNat / 2 ^ (32 - 8 * 3) := by decide

theorem witness_DataWriteAbsorbsIntoTheBlock :
    (4, Instr.wrDin4 0x61626364) ∈ [(1, Instr.wrDin1 0x61626364), (2, .wrDin2 0x61626364), (3, .wrDin3 0x61626364),
      (4, .wrDin4 0x61626364)] ∧ (absorbing 59).mode = .sha ∧ (absorbing 59).blen.toNat + 4 < 64 ∧
    (absorbing 62).blen.toNat + 1 < 64 := by decide

theorem witness_DataWriteCompressesAFullBlock :
    (1, Instr.wrDin1 0x61626364) ∈ [(1, Instr.wrDin1 0x61626364), (2, .wrDin2 0x61626364), (3, .wrDin3 0x61626364),
      (4, .wrDin4 0x61626364)] ∧ (absorbing 63).mode = .sha ∧ 64 ≤ (absorbing 63).blen.toNat + 1 ∧
    64 ≤ (absorbing 60).blen.toNat + 4 := by decide

theorem witness_DataWriteXorsWithTheKeystream :
    (1, Instr.wrDin1 5, 0xFF000000#32) ∈ [(1, Instr.wrDin1 5, 0xFF000000#32), (2, .wrDin2 5, 0xFFFF0000#32),
      (3, .wrDin3 5, 0xFFFFFF00#32), (4, .wrDin4 5, 0xFFFFFFFF#32)] ∧ (streaming 7).mode = .cy ∧
    (State.reset.mode = .idle ∨ State.reset.mode = .cyEnd) ∧ (ended.mode = .idle ∨ ended.mode = .cyEnd) := by decide

/-- An error raised while ERR is 0, and one cleared by CLR_ERR. -/
theorem witness_ErrKeepsTheFirstError :
    (nextOf (step (facing false (encode (.wrDin4 0))))).map (·.err) = some .seq ∧
    (facing false (encode (.wrDin4 0))).err = .none ∧
    (nextOf (step { facing false (encode .clrErr) with err := .bus })).map (·.err) = some .none := by decide

theorem witness_WriteSetsHold :
    (ran .abort ended).raised = ended.raised ∧ Element.dout ∉ writeSet .abort ended.mode ∧
    (ran (.wrDin4 0) ended).raised ≠ ended.raised ∧ Element.mode ≠ .err ∧
    (nextOf (exec (.wrKey 0 5) ended)).isSome = true ∧ (7 : Index) ≠ 0 ∧
    arbitrate (facing true (encode .abort)) = .moved (facing true (encode .abort)).endBusy ∧
    resetNext (facing true (encode .abort)) = false ∧ Element.mode ≠ .busy := by decide

theorem witness_DigestChangesOnlyAtShaFinalOrReset :
    (stepped ((absorbing 0).issue (encode .shaFinal))).digest ≠ (absorbing 0).digest ∧
    (stepped { ended with digest := emptyDigest, dvalid := true, queue := [.reset] }).digest ≠ emptyDigest ∧
    (stepped ({ ended with dvalid := true }.issue (encode .shaInit))).dvalid ≠ true := by decide +kernel

theorem witness_KeyAndIndexChangeOnlyWhereNamed :
    (stepped ((streaming 7).issue (encode (.wrKey 7 5)))).key ≠ (streaming 7).key ∧
    (stepped ((streaming 7).issue (encode (.wrDin4 5)))).kidx ≠ (streaming 7).kidx := by decide

theorem witness_BusyRisesOnlyAtACompression :
    (absorbing 63).busy = false ∧ (stepped ((absorbing 63).issue (encode (.wrDin1 0)))).busy = true ∧
    (stepped ((absorbing 0).issue (encode .shaFinal))).busy = true := by decide +kernel

/-- The invariant holds of a stream that a short word ended, and a step from there is answered. -/
theorem witness_EveryStepKeepsTheInvariant :
    Inv (facing false (encode .rdDout)) ∧ (nextOf (step (facing false (encode .rdDout)))).isSome = true :=
  ⟨⟨by decide, by decide, by decide, by decide, by decide⟩, by decide⟩

/-- Two different states that no rule tells apart: H outside MODE = SHA and a byte beyond those held differ. -/
theorem witness_HiddenStateIsNeverRead :
    HiddenEq (facing false (encode .shaInit))
      { facing false (encode .shaInit) with hash := initialVector, blk := Vector.replicate 64 1 } ∧
    facing false (encode .shaInit) ≠
      { facing false (encode .shaInit) with hash := initialVector, blk := Vector.replicate 64 1 } ∧
    (nextOf (step (facing false (encode .shaInit)))).isSome = true :=
  ⟨⟨by decide, by decide, by decide⟩, by decide, by decide⟩

/-- The same inside a message: one byte held, another byte beyond it differs. -/
theorem witness_HiddenStateIsNeverRead_sha :
    HiddenEq (absorbing 1) { absorbing 1 with blk := (absorbing 1).blk.set 1 0 } ∧
    absorbing 1 ≠ { absorbing 1 with blk := (absorbing 1).blk.set 1 0 } :=
  ⟨⟨by decide, by decide, by decide⟩, by decide⟩

theorem witness_TablesAreRootsOfPrimes : 63 < 64 := by decide

theorem witness_ScheduleFollowsTheRecurrence : abcBlock.length = 64 ∧ 15 < 16 ∧ 16 ≤ 63 ∧ 63 < 64 := by decide

/-- The working states of the "abc" block follow the round equations from IV. -/
theorem witness_CompressionIsSixtyFourRounds :
    abcBlock.length = 64 ∧ workingAfter 0 initialVector abcBlock = startWorking initialVector ∧
    ∀ t, t < 64 → workingAfter (t + 1) initialVector abcBlock =
      compressionRound (workingAfter t initialVector abcBlock) (roundConstants.getD t 0) ((schedule abcBlock).getD t 0) :=
  ⟨by decide, rfl, fun _ h => workingAfter_succ h _ _⟩

theorem witness_PaddingFillsWholeBlocks :
    (List.replicate 55 (0x61 : Byte)).length ≤ 55 ∧ ¬(List.replicate 56 (0x61 : Byte)).length ≤ 55 ∧
    (List.replicate 63 (0x61 : Byte)).length ≤ 63 ∧ 63 < 119 ∧ 119 < (pad (List.replicate 63 0x61) 0x1f8).length - 8 := by
  decide +kernel

theorem witness_DigestIsSha256OfTheMessage :
    ∀ a ∈ [encode (.wrDin3 0x61626300), encode .keyLoad, busRead 0x0C, encode (.wrKey 0 1), encode .rdStatus, encode .clrErr],
      keepsMessage a = true := by decide

theorem witness_KeyLoadDuringAMessageRaisesErrNoDigest :
    ∀ a ∈ [encode (.wrDin4 0x61626364), busWrite 0x04 7], keepsMessage a = true := by decide

theorem witness_CypherTwiceIsTheInput : ended.key = State.reset.key ∧ (streaming 0).key = (streaming 5).key := by decide

end Sys2Proof.Tests
end

/-! Operations performed through their accesses, one after another. -/

namespace Sys2Proof.Machine

/-- The access of KEYj passes the form checks, lies in the key bank and carries its index (spec/30_encoding.md R68). -/
theorem keyOffset_fields (j : Index) :
    (arrayOffset 0b11#2 j).extractLsb' 0 2 = 0#2 ∧ arrayOffset 0b11#2 j ∉ reservedOffsets ∧
    (arrayOffset 0b11#2 j).extractLsb' 5 2 = 0b11#2 ∧ offIndex (arrayOffset 0b11#2 j) = j := by
  revert j
  decide

/-- The decoder reads every operation back from its access (spec/30_encoding.md R67 to R71). -/
theorem decode_encode (i : Instr) : decode (encode i) = .op i := by
  cases i with
  | rdDigest j | rdKey j =>
    revert j
    decide
  | wrKey j w =>
    obtain ⟨haligned, hmapped, hbank, hindex⟩ := keyOffset_fields j
    simp [encode, busWrite, decode, decodeWrite, haligned, hmapped, hbank, hindex]
  | wrDin1 w | wrDin2 w | wrDin3 w | wrDin4 w => simp [encode, busWrite, decode, decodeWrite, reservedOffsets]
  | _ => rfl

/-- Performing the access of an operation runs the operation (spec/30_encoding.md R79). -/
@[simp] theorem perform_encode (i : Instr) (s : State) : perform (encode i) s = exec i s :=
  perform_op (decode_encode i) s

@[simp] theorem performAll_nil (s : State) : performAll [] s = .next s := rfl

theorem performAll_cons {a : Access} {s t : State} (h : perform a s = .next t) (as : List Access) :
    performAll (a :: as) s = performAll as t := by
  simp [performAll, h]

theorem performAll_encode_cons {i : Instr} {s t : State} (h : exec i s = .next t) (is : List Instr) :
    performAll ((i :: is).map encode) s = performAll (is.map encode) t :=
  performAll_cons ((perform_encode i s).trans h) _

/-- Accesses performed in two parts: the second part sees the state the first leaves (spec/20_memory.md R61). -/
theorem performAll_append {as : List Access} {s t : State} (h : performAll as s = .next t) (bs : List Access) :
    performAll (as ++ bs) s = performAll bs t := by
  induction as generalizing s with
  | nil =>
    cases h
    rfl
  | cons a as ih =>
    cases hp : perform a s with
    | next u =>
      rw [performAll_cons hp] at h
      rw [List.cons_append, performAll_cons hp, ih h]
    | fault r => simp [performAll, hp] at h
    | refused r => simp [performAll, hp] at h

end Sys2Proof.Machine

/-! The bytes of one data write: how many, which, and which bytes the cypher's XOR and mask make of them. -/

namespace Sys2Proof.Machine

open Sys2Proof.Safety

/-- The data word of a data write; the other operations have none and give 0. -/
def dataWord : Instr → Word
  | .wrDin1 w | .wrDin2 w | .wrDin3 w | .wrDin4 w => w
  | _ => 0

theorem byteCount_le_four (i : Instr) : byteCount i ≤ 4 := by
  cases i <;> simp [byteCount]

/-- The stream bytes of an operation are the first bytes of its data word (spec/30_encoding.md R72). -/
theorem dataBytes_eq (i : Instr) : dataBytes i = streamBytes (byteCount i) (dataWord i) := by
  cases i <;> rfl

@[simp] theorem dataBytes_length (i : Instr) : (dataBytes i).length = byteCount i := by
  simp [dataBytes_eq]

/-- An operation that carries stream bytes is a data write (spec/30_encoding.md R78). -/
theorem exec_dataWrite {i : Instr} (h : 0 < byteCount i) (s : State) :
    exec i s = .next (dataWrite (byteCount i) (dataWord i) s) := by
  cases i with
  | wrDin1 w | wrDin2 w | wrDin3 w | wrDin4 w => rfl
  | _ => simp [byteCount] at h

/-- A full word carries the four bytes it is put together from (spec/30_encoding.md R80). -/
theorem streamBytes_full (b0 b1 b2 b3 : Byte) : streamBytes 4 (b0 ++ b1 ++ b2 ++ b3) = [b0, b1, b2, b3] := by
  simp only [streamBytes, streamByte, List.range_succ, List.range_zero, List.nil_append, List.cons_append, List.map_cons,
    List.map_nil, List.cons.injEq, and_true]
  refine ⟨?_, ?_, ?_, ?_⟩ <;> ext i hi <;> grind

/-- A short word carries the bytes above its zeros (spec/30_encoding.md R80). -/
theorem streamBytes_short (b0 b1 b2 : Byte) :
    streamBytes 3 (b0 ++ b1 ++ b2 ++ 0#8) = [b0, b1, b2] ∧ streamBytes 2 (b0 ++ b1 ++ 0#16) = [b0, b1] ∧
    streamBytes 1 (b0 ++ 0#24) = [b0] := by
  simp only [streamBytes, streamByte, List.range_succ, List.range_zero, List.nil_append, List.cons_append, List.map_cons,
    List.map_nil, List.cons.injEq, and_true]
  refine ⟨⟨?_, ?_, ?_⟩, ⟨?_, ?_⟩, ?_⟩ <;> ext i hi <;> grind

/-- Bit `i` of byte `k` is bit `24 - 8k + i` of the word (spec/20_memory.md R54). -/
theorem getLsbD_streamByte (w : Word) (k i : Nat) :
    (streamByte w k).getLsbD i = (decide (i < 8) && w.getLsbD (24 - 8 * k + i)) := by
  simp [streamByte]

@[simp] theorem streamByte_xor (v w : Word) (k : Nat) : streamByte (v ^^^ w) k = streamByte v k ^^^ streamByte w k :=
  BitVec.extractLsb'_xor

/-- MASK(n) keeps the first `n` bytes of a word (spec/41_cypher.md R119). -/
theorem streamByte_and_mask {n k : Nat} (hk : k < n) (hn : n ≤ 4) (w : Word) :
    streamByte (w &&& mask n) k = streamByte w k := by
  ext i hi
  have hkept : 24 - 8 * k + i < 32 ∧ 32 ≤ 8 * n + (24 - 8 * k + i) := by omega
  simp [← BitVec.getLsbD_eq_getElem, getLsbD_streamByte, getLsbD_mask, hkept]

/-- Byte `k` of a register array is byte `k mod 4` of word `k div 4` (spec/41_cypher.md R121). -/
theorem wordsByte_at (v : Vector Word 8) (m : Nat) {k : Nat} (hk : k < 4) :
    wordsByte v (4 * m + k) = streamByte (wordAt v (BitVec.ofNat 3 m)) k := by
  have hword : (4 * m + k) / 4 = m := by omega
  have hbyte : (4 * m + k) % 4 = k := by omega
  rw [wordsByte, hword, hbyte]

/-- The cypher of bytes that stand from place `p` of a stream on (spec/41_cypher.md R121). -/
def cypherFrom (key : Vector Word 8) (p : Nat) (bytes : List Byte) : List Byte :=
  bytes.mapIdx fun q b => b ^^^ wordsByte key (p + q)

theorem cypherStream_eq_cypherFrom (key : Vector Word 8) (bytes : List Byte) :
    cypherStream key bytes = cypherFrom key 0 bytes := by
  simp [cypherStream, cypherFrom]

theorem cypherFrom_append (key : Vector Word 8) (p : Nat) (xs ys : List Byte) :
    cypherFrom key p (xs ++ ys) = cypherFrom key p xs ++ cypherFrom key (p + xs.length) ys := by
  simp only [cypherFrom, List.mapIdx_append, Nat.add_comm, Nat.add_left_comm]

/-- The cypher under one key is its own inverse (spec/41_cypher.md R125). -/
theorem cypherStream_cypherStream (key : Vector Word 8) (bytes : List Byte) :
    cypherStream key (cypherStream key bytes) = bytes := by
  refine List.ext_getElem (by simp [cypherStream]) fun p _ _ => ?_
  simp [cypherStream]

/-- The word that DOUT holds after a data write of a cypher stream (spec/41_cypher.md R120). -/
def cyDout (i : Instr) (s : State) : Word := (dataWord i ^^^ wordAt s.key s.kidx) &&& mask (byteCount i)

/-- The top bytes of DOUT are the bytes written, each XORed with the key byte of its place (spec/41_cypher.md R121). -/
theorem streamBytes_cyDout (i : Instr) {m : Nat} {s : State} (hk : s.kidx = BitVec.ofNat 3 m) :
    streamBytes (byteCount i) (cyDout i s) = cypherFrom s.key (4 * m) (dataBytes i) := by
  have hcount := byteCount_le_four i
  refine List.ext_getElem (by simp [cypherFrom]) fun k hleft _ => ?_
  have hkn : k < byteCount i := by simpa using hleft
  have hkeyByte := wordsByte_at s.key m (Nat.lt_of_lt_of_le hkn hcount)
  simp [dataBytes_eq, streamBytes, cypherFrom, cyDout, streamByte_and_mask hkn hcount, hkeyByte, hk]

end Sys2Proof.Machine

/-! The host procedure CY_APPLY: one data write with its DOUT read, the loop over a stream, the whole procedure,
and the involution. -/

namespace Sys2Proof.Machine

open Sys2Proof.Safety

/-- The state after a data write of a cypher stream and the DOUT read that follows it. -/
def cyWordRead (i : Instr) (s : State) : State :=
  State.reply (cyDout i s) { cyXor (byteCount i) (dataWord i) s with doutValid := false }

section cyWordRead

variable (i : Instr) (s : State)

@[simp] theorem cyWordRead_replies : (cyWordRead i s).replies = cyDout i s :: s.replies := rfl
@[simp] theorem cyWordRead_key : (cyWordRead i s).key = s.key := rfl
@[simp] theorem cyWordRead_cycnt : (cyWordRead i s).cycnt = s.cycnt + BitVec.ofNat 64 (byteCount i) := rfl
@[simp] theorem cyWordRead_mode : (cyWordRead i s).mode = if byteCount i = 4 then s.mode else .cyEnd := rfl
@[simp] theorem cyWordRead_kidx : (cyWordRead i s).kidx = if byteCount i = 4 then s.kidx + 1 else s.kidx := rfl

end cyWordRead

/-- A data write and a DOUT read at the head of a program, in a cypher stream (spec/41_cypher.md R120, R122). -/
theorem performAll_cyWord {i : Instr} {s : State} (hi : 0 < byteCount i) (hm : s.mode = .cy) (is : List Instr) :
    performAll ((i :: .rdDout :: is).map encode) s = performAll (is.map encode) (cyWordRead i s) := by
  have hwrite : exec i s = .next (cyXor (byteCount i) (dataWord i) s) := by
    rw [exec_dataWrite hi, dataWrite, hm]
  rw [performAll_encode_cons hwrite, performAll_encode_cons (t := cyWordRead i s) rfl]

/-- The data writes of a stream, each with its DOUT read (spec/30_encoding.md R82). -/
def streamOps (bytes : List Byte) : List Instr := (bytesOps bytes).flatMap fun i => [i, .rdDout]

/-- From `s` to `t` the host has written `bytes`, which stand from place `p` of the stream on, and has read the words `outs`
(spec/41_cypher.md R121). -/
structure Streamed (p : Nat) (bytes : List Byte) (s t : State) (outs : List Word) : Prop where
  replies : t.replies = outs.reverse ++ s.replies
  count   : outs.length = (bytesOps bytes).length
  output  : cyOutput bytes outs = cypherFrom s.key p bytes
  cycnt   : t.cycnt = s.cycnt + BitVec.ofNat 64 bytes.length

theorem Streamed.nil (p : Nat) (s : State) : Streamed p [] s s [] :=
  ⟨rfl, rfl, rfl, by simp⟩

/-- One data write and its DOUT read before a stream. -/
theorem Streamed.cons {i : Instr} {m : Nat} {bytes rest : List Byte} {s t : State} {outs : List Word}
    (hk : s.kidx = BitVec.ofNat 3 m) (hops : bytesOps bytes = i :: bytesOps rest) (hbytes : bytes = dataBytes i ++ rest)
    (h : Streamed (4 * m + byteCount i) rest (cyWordRead i s) t outs) :
    Streamed (4 * m) bytes s t (cyDout i s :: outs) where
  replies := by simp [h.replies]
  count := by simp [h.count, hops]
  output := by
    have hrest : cyOutput bytes (cyDout i s :: outs) = streamBytes (byteCount i) (cyDout i s) ++ cyOutput rest outs := by
      simp [cyOutput, hops]
    rw [hrest, streamBytes_cyDout i hk, h.output, hbytes, cypherFrom_append, dataBytes_length, cyWordRead_key]
  cycnt := by simp [h.cycnt, hbytes, BitVec.ofNat_add, BitVec.add_assoc]

/-- The loop of CY_APPLY one data write longer: it takes its bytes from the front, and the loop goes on with the rest. -/
theorem performAll_streamOps_cons {i : Instr} {m : Nat} {bytes rest : List Byte} {s : State} (hi : 0 < byteCount i)
    (hm : s.mode = .cy) (hk : s.kidx = BitVec.ofNat 3 m) (hops : bytesOps bytes = i :: bytesOps rest)
    (hbytes : bytes = dataBytes i ++ rest)
    (h : ∃ t outs, performAll ((streamOps rest).map encode) (cyWordRead i s) = .next t ∧
      Streamed (4 * m + byteCount i) rest (cyWordRead i s) t outs) :
    ∃ t outs, performAll ((streamOps bytes).map encode) s = .next t ∧ Streamed (4 * m) bytes s t outs := by
  obtain ⟨t, outs, hrun, hstream⟩ := h
  have hstreamOps : streamOps bytes = i :: .rdDout :: streamOps rest := by simp [streamOps, hops]
  exact ⟨t, cyDout i s :: outs, by rw [hstreamOps, performAll_cyWord hi hm, hrun], hstream.cons hk hops hbytes⟩

/-- The loop of CY_APPLY, from the start of any word of the keystream (spec/30_encoding.md R82). -/
theorem performAll_streamOps (bytes : List Byte) {m : Nat} {s : State} (hm : s.mode = .cy)
    (hk : s.kidx = BitVec.ofNat 3 m) :
    ∃ t outs, performAll ((streamOps bytes).map encode) s = .next t ∧ Streamed (4 * m) bytes s t outs := by
  induction bytes using bytesOps.induct generalizing m s with
  | case1 b0 b1 b2 b3 rest ih =>
    have hmode : (cyWordRead (.wrDin4 (b0 ++ b1 ++ b2 ++ b3)) s).mode = .cy := hm
    have hkidx : (cyWordRead (.wrDin4 (b0 ++ b1 ++ b2 ++ b3)) s).kidx = BitVec.ofNat 3 (m + 1) := by
      simp [byteCount, hk, BitVec.ofNat_add]
    exact performAll_streamOps_cons (by simp [byteCount]) hm hk rfl (by simp [dataBytes, streamBytes_full]) (ih hmode hkidx)
  | case2 b0 b1 b2 =>
    exact performAll_streamOps_cons (rest := []) (by simp [byteCount]) hm hk rfl (streamBytes_short b0 b1 b2).1.symm
      ⟨_, _, rfl, .nil _ _⟩
  | case3 b0 b1 =>
    exact performAll_streamOps_cons (rest := []) (by simp [byteCount]) hm hk rfl (streamBytes_short b0 b1 0).2.1.symm
      ⟨_, _, rfl, .nil _ _⟩
  | case4 b0 =>
    exact performAll_streamOps_cons (rest := []) (by simp [byteCount]) hm hk rfl (streamBytes_short b0 0 0).2.2.symm
      ⟨_, _, rfl, .nil _ _⟩
  | case5 => exact ⟨s, [], rfl, .nil _ s⟩

/-- CY_APPLY(S) from any state: the words it reads are the cypher of `S`, and then the byte count (spec/30_encoding.md R82). -/
theorem performAll_cyApplyOps (bytes : List Byte) (s : State) :
    ∃ t outs, performAll ((cyApplyOps bytes).map encode) s = .next t ∧
      t.replies = highHalf (BitVec.ofNat 64 bytes.length) :: lowHalf (BitVec.ofNat 64 bytes.length) ::
        (outs.reverse ++ s.replies) ∧
      outs.length = (bytesOps bytes).length ∧ cyOutput bytes outs = cypherStream s.key bytes := by
  obtain ⟨start, hstart, hmode, hkidx, hcycnt, hkey, hreplies⟩ : ∃ u, exec .cyStart s = .next u ∧ u.mode = .cy ∧
    u.kidx = 0 ∧ u.cycnt = 0 ∧ u.key = s.key ∧ u.replies = s.replies := ⟨_, rfl, rfl, rfl, rfl, rfl, rfl⟩
  obtain ⟨u, outs, hrun, hstream⟩ := performAll_streamOps bytes (m := 0) hmode hkidx
  have hcount : u.cycnt = BitVec.ofNat 64 bytes.length := by simp [hstream.cycnt, hcycnt]
  refine ⟨(u.reply (lowHalf u.cycnt)).reply (highHalf u.cycnt), outs, ?_, ?_, hstream.count, ?_⟩
  · have hprogram : cyApplyOps bytes = .cyStart :: (streamOps bytes ++ [.rdCycntLo, .rdCycntHi]) := rfl
    rw [hprogram, performAll_encode_cons hstart, List.map_append, performAll_append hrun]
    rfl
  · simp [hcount, hstream.replies, hreplies]
  · rw [hstream.output, hkey, cypherStream_eq_cypherFrom]

/-- Settles O53: CY_APPLY outputs the cypher of its input, and the cypher under one key is its own inverse. -/
theorem cypherTwiceIsTheInput : Obligations.CypherTwiceIsTheInput := by
  intro bytes s s' hkey
  obtain ⟨t, outs, hrun, hreplies, hcount, hout⟩ := performAll_cyApplyOps bytes s
  obtain ⟨t', outs', hrun', hreplies', hcount', hout'⟩ := performAll_cyApplyOps (cyOutput bytes outs) s'
  refine ⟨t, t', outs, outs', hrun, ?_, hrun', ?_, hcount, hcount', ?_⟩
  · rw [hreplies, List.drop_succ_cons, List.drop_succ_cons, List.drop_zero]
  · rw [hreplies', List.drop_succ_cons, List.drop_succ_cons, List.drop_zero]
  · rw [hout', hout, hkey, cypherStream_cypherStream]

end Sys2Proof.Machine

/-! Everything a step can do, with the operation it performs: each claim over every step is then a case for the
engine, one for the platform's reset, one for a suppressed access and one for an operation. -/

namespace Sys2Proof.Machine

open Sys2Proof.Safety

/-- The state that arbitration hands to an access differs in the host's events and the draws alone. -/
theorem arbitrate_perform_frame {s u : State} {a : Access} (h : arbitrate s = .perform a u) :
    u = { s with queue := u.queue, draws := u.draws } := by
  rcases arbitrate_cases s with ⟨-, hs⟩ | ⟨rest, -, hs⟩ | ⟨b, rest, -, -, hs⟩ | ⟨b, rest, -, -, -, hs⟩ |
    ⟨b, rest, -, -, -, hs | hs⟩ <;> rw [hs] at h <;> cases h <;> rfl

/-- A move without an access is the platform's reset, or the engine's step, which changes BUSY and the draws alone
(spec/20_memory.md R58, spec/70_reset_and_hazards.md R163). -/
theorem arbitrate_moved_frame {s t : State} (h : arbitrate s = .moved t) :
    resetNext s = true ∨ t = { s with busy := false, draws := t.draws } := by
  rcases arbitrate_cases s with ⟨-, hs⟩ | ⟨rest, hq, -⟩ | ⟨b, rest, -, -, hs⟩ | ⟨b, rest, -, -, -, hs⟩ |
    ⟨b, rest, -, -, -, hs | hs⟩
  case inr.inl => exact .inl (by simp [resetNext, hq])
  all_goals
    rw [hs] at h
    cases h <;> exact .inr rfl

/-- A step is the platform's reset, the engine's step, a suppressed access, or an operation run. -/
theorem step_next_cases {s t : State} (h : step s = .next t) :
    resetNext s = true ∨ t = { s with busy := false, draws := t.draws } ∨
    (∃ d e q n, t = State.suppress d e { s with queue := q, draws := n }) ∨
    ∃ i q n, performs s = some i ∧ exec i { s with queue := q, draws := n } = .next t := by
  rcases step_cases h with ⟨u, hmoved, hu⟩ | ⟨a, u, hperform, ht⟩
  · cases hu
    rcases arbitrate_moved_frame hmoved with hreset | hengine
    · exact .inl hreset
    · exact .inr (.inl hengine)
  · rw [arbitrate_perform_frame hperform] at ht
    cases hd : decode a with
    | op i =>
      rw [perform_op hd] at ht
      exact .inr (.inr (.inr ⟨i, _, _, by simp [performs, hperform, hd], ht⟩))
    | reject r =>
      rw [perform_reject hd] at ht
      cases ht
      exact .inr (.inr (.inl ⟨_, _, _, _, rfl⟩))

end Sys2Proof.Machine

/-! What an operation does to DIGEST and DVALID, and the claim over every step. -/

namespace Sys2Proof.Machine

open Sys2Proof.Safety

section keeps

/-! Suppressed accesses and data writes leave the digest as it is (spec/60_exceptions.md R146, spec/10_state.md R43). -/

variable (d : Dir) (e : Err) (n : Nat) (w : Word) (s : State)

@[simp] theorem suppress_digest : (s.suppress d e).digest = s.digest := by
  rcases suppress_cases d e s with ⟨-, h⟩ | ⟨-, h⟩ <;> simp [h]

@[simp] theorem suppress_dvalid : (s.suppress d e).dvalid = s.dvalid := by
  rcases suppress_cases d e s with ⟨-, h⟩ | ⟨-, h⟩ <;> simp [h]

@[simp] theorem shaAbsorb_digest : (shaAbsorb n w s).digest = s.digest := by
  rw [shaAbsorb, absorbBytes_frame]

@[simp] theorem shaAbsorb_dvalid : (shaAbsorb n w s).dvalid = s.dvalid := by
  rw [shaAbsorb, absorbBytes_frame]

@[simp] theorem dataWrite_digest : (dataWrite n w s).digest = s.digest := by
  rcases dataWrite_cases n w s with ⟨-, h⟩ | ⟨-, h⟩ | ⟨-, h⟩ <;> simp [h]

@[simp] theorem dataWrite_dvalid : (dataWrite n w s).dvalid = s.dvalid := by
  rcases dataWrite_cases n w s with ⟨-, h⟩ | ⟨-, h⟩ | ⟨-, h⟩ <;> simp [h]

end keeps

/-- An operation keeps DIGEST and DVALID, or is a SHA_FINAL that completes, or is a SHA_INIT, which keeps DIGEST
(spec/10_state.md R31, R33). -/
theorem exec_digest_cases {i : Instr} {s t : State} (h : exec i s = .next t) :
    (t.digest = s.digest ∧ t.dvalid = s.dvalid) ∨ (i = .shaFinal ∧ s.mode = .sha) ∨
    (i = .shaInit ∧ t.digest = s.digest) := by
  cases i with
  | shaInit =>
    cases h
    exact .inr (.inr ⟨rfl, rfl⟩)
  | shaFinal =>
    rcases execShaFinal_cases s with ⟨hmode, -⟩ | ⟨-, hs⟩
    · exact .inr (.inl ⟨rfl, hmode⟩)
    · cases hs.symm.trans h
      exact .inl ⟨rfl, rfl⟩
  | keyLoad =>
    rcases execKeyLoad_cases s with ⟨-, hs⟩ | ⟨-, hs⟩
    all_goals
      cases hs.symm.trans h
      exact .inl ⟨rfl, rfl⟩
  | wrDin1 w | wrDin2 w | wrDin3 w | wrDin4 w =>
    cases h
    exact .inl ⟨dataWrite_digest .., dataWrite_dvalid ..⟩
  | _ =>
    cases h
    exact .inl ⟨rfl, rfl⟩

/-- Over a step DIGEST and DVALID are kept, or the step is a reset, a SHA_FINAL that completes, or a SHA_INIT, which keeps
DIGEST (spec/00_scope.md R19). -/
theorem step_digest_cases {s t : State} (h : step s = .next t) :
    (t.digest = s.digest ∧ t.dvalid = s.dvalid) ∨ resetNext s = true ∨
    (performs s = some .shaFinal ∧ s.mode = .sha) ∨ (performs s = some .shaInit ∧ t.digest = s.digest) := by
  rcases step_next_cases h with hreset | hengine | ⟨d, e, q, n, ht⟩ | ⟨i, q, n, hi, hexec⟩
  · exact .inr (.inl hreset)
  · rw [hengine]
    exact .inl ⟨rfl, rfl⟩
  · rw [ht]
    exact .inl ⟨suppress_digest .., suppress_dvalid ..⟩
  · rcases exec_digest_cases hexec with hkept | ⟨rfl, hmode⟩ | ⟨rfl, hkept⟩
    · exact .inl hkept
    · exact .inr (.inr (.inl ⟨hi, hmode⟩))
    · exact .inr (.inr (.inr ⟨hi, hkept⟩))

/-- Settles O35: the cases of a step in which DIGEST or DVALID is not kept are those the claim names. -/
theorem digestChangesOnlyAtShaFinalOrReset : Obligations.DigestChangesOnlyAtShaFinalOrReset := by
  intro s t h
  rcases step_digest_cases h with ⟨hdigest, hdvalid⟩ | hreset | hfinal | ⟨hinit, hdigest⟩
  · exact ⟨fun hne => absurd hdigest hne, fun hne => absurd hdvalid hne⟩
  · exact ⟨fun _ => .inl hreset, fun _ => .inl hreset⟩
  · exact ⟨fun _ => .inr hfinal, fun _ => .inr (.inr hfinal)⟩
  · exact ⟨fun hne => absurd hdigest hne, fun _ => .inr (.inl hinit)⟩

end Sys2Proof.Machine

/-! The platform's reset as a step, and the invariant of reachable states. -/

namespace Sys2Proof.Machine

open Sys2Proof.Safety

/-- A step that takes the platform's reset is never held (spec/70_reset_and_hazards.md R163). -/
theorem step_reset_event {s : State} {rest : List Event} (h : s.queue = .reset :: rest) :
    step s = .next (s.setQueue rest).platformReset := by
  simp [step, arbitrate, h]

theorem resetNext_iff {s : State} : resetNext s = true ↔ ∃ rest, s.queue = .reset :: rest := by
  unfold resetNext
  split <;> simp_all

/-- What a step answers when the platform's reset is next. -/
theorem eq_platformReset_of_resetNext {s t : State} (hreset : resetNext s = true) (h : step s = .next t) :
    ∃ rest, t = (s.setQueue rest).platformReset := by
  obtain ⟨rest, hq⟩ := resetNext_iff.1 hreset
  cases (step_reset_event hq).symm.trans h
  exact ⟨rest, rfl⟩

/-- The elements that the spec gives a value after reset (spec/10_state.md R41). -/
theorem resetValues_reset : ResetValues State.reset := by
  constructor <;> decide

theorem resetValues_platformReset (s : State) : ResetValues s.platformReset :=
  { resetValues_reset with }

/-- STATUS is made of elements that have a value after reset (spec/10_state.md R41). -/
theorem statusWord_of_resetValues {t : State} (h : ResetValues t) : statusWord t = 0 := by
  simp only [statusWord, h.mode, h.busy, h.blen, h.dvalid, h.kidx, h.doutLen, h.doutValid, h.ovr, h.err]
  decide

/-- Settles O6: the reset state holds the reset values, and the platform's reset gives the block the same ones. -/
theorem resetGivesEveryElementItsValue : Obligations.ResetGivesEveryElementItsValue := by
  refine ⟨⟨resetValues_reset, statusWord_of_resetValues resetValues_reset⟩, fun s rest hq => ?_⟩
  have hvalues := resetValues_platformReset (s.setQueue rest)
  exact ⟨_, step_reset_event hq, hvalues, statusWord_of_resetValues hvalues⟩

/-- Settles O39: MODE is IDLE after reset and BLEN, DOUT_LEN, DOUT and DOUT_VALID are 0. -/
theorem resetMeetsTheInvariant : Obligations.ResetMeetsTheInvariant where
  blen_zero := fun _ => rfl
  doutLen_le := by decide
  dout_masked := by decide
  doutLen_pos := nofun
  doutLen_short := nofun

theorem inv_platformReset (s : State) : Inv s.platformReset :=
  { resetMeetsTheInvariant with }

theorem inv_raise {s : State} (h : Inv s) (e : Err) : Inv (s.raise e) :=
  { h with }

theorem inv_suppress {s : State} (h : Inv s) (d : Dir) (e : Err) : Inv (s.suppress d e) := by
  rcases suppress_cases d e s with ⟨-, hs⟩ | ⟨-, hs⟩ <;> rw [hs] <;> exact { h with }

/-- Absorbing message bytes keeps the invariant: MODE stays SHA, and the DOUT fields are not touched
(spec/40_sha256.md R96). -/
theorem inv_shaAbsorb {s : State} (h : Inv s) (hm : s.mode = .sha) (n : Nat) (w : Word) : Inv (shaAbsorb n w s) := by
  rw [shaAbsorb, absorbBytes_frame]
  exact { h with blen_zero := fun hne => absurd hm hne }

/-- A cypher word of one to four bytes sets DOUT, masked to its length, with DOUT_LEN (spec/41_cypher.md R120). -/
theorem inv_cyXor {s : State} (h : Inv s) (hm : s.mode = .cy) {n : Nat} (hpos : 1 ≤ n) (hle : n ≤ 4) (w : Word) :
    Inv (cyXor n w s) := by
  have hlen : (cyXor n w s).doutLen.toNat = n := by
    rw [cyXor_doutLen, BitVec.toNat_ofNat, Nat.mod_eq_of_lt (by omega)]
  constructor
  case blen_zero => exact fun _ => h.blen_zero (by simp [hm])
  case doutLen_le => rwa [hlen]
  case dout_masked => rw [hlen, cyXor_dout, BitVec.and_assoc, BitVec.and_self]
  case doutLen_pos => exact fun _ => by rwa [hlen]
  case doutLen_short =>
    intro hend
    have hshort : n ≠ 4 := by
      rintro rfl
      simp [hm] at hend
    omega

/-- A data write of one to four bytes keeps the invariant in every MODE (spec/30_encoding.md R78). -/
theorem inv_dataWrite {s : State} (h : Inv s) {n : Nat} (hpos : 1 ≤ n) (hle : n ≤ 4) (w : Word) :
    Inv (dataWrite n w s) := by
  rcases dataWrite_cases n w s with ⟨hm, hs⟩ | ⟨hm, hs⟩ | ⟨-, hs⟩ <;> rw [hs]
  · exact inv_shaAbsorb h hm n w
  · exact inv_cyXor h hm hpos hle w
  · exact inv_raise h .seq

/-- Every operation keeps the invariant: those that leave MODE = SHA, or end a stream, clear BLEN and the DOUT fields they
must (spec/10_state.md R40). -/
theorem inv_exec {i : Instr} {s t : State} (hinv : Inv s) (h : exec i s = .next t) : Inv t := by
  cases i with
  | shaInit =>
    cases h
    exact { hinv with blen_zero := fun _ => rfl, doutLen_short := nofun }
  | shaFinal =>
    rcases execShaFinal_cases s with ⟨-, hs⟩ | ⟨-, hs⟩ <;> cases hs.symm.trans h
    · exact { hinv with blen_zero := fun _ => rfl, doutLen_short := nofun }
    · exact inv_raise hinv .seq
  | keyLoad =>
    rcases execKeyLoad_cases s with ⟨-, hs⟩ | ⟨-, hs⟩ <;> cases hs.symm.trans h
    · exact { hinv with }
    · exact inv_raise hinv .noDigest
  | cyStart =>
    cases h
    exact ⟨fun _ => rfl, by simp, by simp, nofun, nofun⟩
  | abort =>
    cases h
    exact { hinv with blen_zero := fun _ => rfl, doutLen_short := nofun }
  | rdDout =>
    cases h
    exact { hinv with doutLen_pos := nofun }
  | wrDin1 w | wrDin2 w | wrDin3 w | wrDin4 w =>
    cases h
    exact inv_dataWrite hinv (by decide) (by decide) w
  | _ =>
    cases h
    exact { hinv with }

/-- Settles O38: the reset and the engine set or keep the fields of the invariant, and every access keeps it. -/
theorem everyStepKeepsTheInvariant : Obligations.EveryStepKeepsTheInvariant := by
  intro s t hinv h
  rcases step_next_cases h with hreset | hengine | ⟨d, e, q, n, ht⟩ | ⟨i, q, n, -, hexec⟩
  · obtain ⟨rest, ht⟩ := eq_platformReset_of_resetNext hreset h
    exact ht ▸ inv_platformReset _
  · rw [hengine]
    exact { hinv with }
  · have hbefore : Inv { s with queue := q, draws := n } := { hinv with }
    exact ht ▸ inv_suppress hbefore d e
  · have hbefore : Inv { s with queue := q, draws := n } := { hinv with }
    exact inv_exec hbefore hexec

end Sys2Proof.Machine

/-! The STATUS word as a number. -/

namespace Sys2Proof.Machine

open Sys2Proof.Safety

theorem modeBits_toNat (m : Mode) : (modeBits m).toNat = modeValue m := by
  cases m <;> rfl

theorem errBits_toNat (e : Err) : (errBits e).toNat = errValue e := by
  cases e <;> rfl

/-- A field placed above `n` lower bits has the weight `2^n` (spec/10_state.md R38). -/
theorem toNat_append_eq_add {m n : Nat} (x : BitVec m) (y : BitVec n) : (x ++ y).toNat = x.toNat * 2 ^ n + y.toNat := by
  rw [BitVec.toNat_append, ← Nat.shiftLeft_add_eq_or_of_lt y.isLt, Nat.shiftLeft_eq]

theorem ofBool_toNat_mul (b : Bool) (k : Nat) : (BitVec.ofBool b).toNat * k = if b then k else 0 := by
  cases b <;> simp

/-- STATUS is the sum of its fields, each at the weight of its lowest bit (spec/10_state.md R38). -/
theorem statusWord_toNat (s : State) :
    (statusWord s).toNat =
      modeValue s.mode +
      (if s.busy then 2 ^ 2 else 0) + (if s.dvalid then 2 ^ 3 else 0) + (if s.doutValid then 2 ^ 4 else 0) +
      (if s.ovr then 2 ^ 5 else 0) + s.doutLen.toNat * 2 ^ 8 + s.kidx.toNat * 2 ^ 12 + s.blen.toNat * 2 ^ 16 +
      errValue s.err * 2 ^ 24 := by
  simp only [statusWord, toNat_append_eq_add, modeBits_toNat, errBits_toNat, ← ofBool_toNat_mul, BitVec.toNat_ofNat,
    Nat.zero_mod]
  omega

/-- STATUS is a read-only register: its WRITE is outside the access map, whatever the word (spec/20_memory.md R52). -/
theorem decode_statusWrite (w : Word) : decode (busWrite 0x08 w) = .reject .writeOfReadOnly := by
  simp [busWrite, decode, decodeWrite, reservedOffsets]

/-- Settles O17: a STATUS read returns the STATUS word, and a WRITE of STATUS decodes to ERR_BUS. -/
theorem statusReadsAsTheSumOfItsFields : Obligations.StatusReadsAsTheSumOfItsFields :=
  fun s => ⟨⟨statusWord s, rfl, statusWord_toNat s⟩, fun w => perform_reject (decode_statusWrite w) s⟩

end Sys2Proof.Machine

/-! The write sets, and what each of them says about the element a step changes: an element changes only where a row of
spec/10_state.md R43 names it. -/

namespace Sys2Proof.Machine

open Sys2Proof.Safety

/-- From `s` to `t` no element outside `es` changes. -/
def ChangesOnly (es : List Element) (s t : State) : Prop := ∀ e, e ∉ es → SameElement e s t

/-- Raising an error changes ERR alone (spec/60_exceptions.md R146). -/
theorem raise_changesOnly (e : Err) (s : State) : ChangesOnly [.err] s (s.raise e) := by
  intro x hx
  cases x <;> simp at hx <;> rfl

/-- A suppressed access changes ERR alone (spec/60_exceptions.md R146). -/
theorem suppress_changesOnly (d : Dir) (e : Err) (s : State) : ChangesOnly [.err] s (s.suppress d e) := by
  rcases suppress_cases d e s with ⟨-, hs⟩ | ⟨-, hs⟩ <;> rw [hs] <;> exact raise_changesOnly e s

/-- A data write in MODE = SHA changes the elements of its row (spec/10_state.md R43). -/
theorem shaAbsorb_changesOnly (n : Nat) (w : Word) (s : State) : ChangesOnly (dataWriteSet .sha) s (shaAbsorb n w s) := by
  intro x hx
  rw [shaAbsorb, absorbBytes_frame]
  cases x <;> simp [dataWriteSet] at hx <;> rfl

/-- A data write in MODE = CY changes the elements of its row (spec/10_state.md R43). -/
theorem cyXor_changesOnly (n : Nat) (w : Word) (s : State) : ChangesOnly (dataWriteSet .cy) s (cyXor n w s) := by
  intro x hx
  cases x <;> simp [dataWriteSet] at hx <;> rfl

theorem shaAbsorb_raised (n : Nat) (w : Word) (s : State) : (shaAbsorb n w s).raised = s.raised := by
  rw [shaAbsorb, absorbBytes_frame]

/-- An operation completes within `es`, or raises an error and does nothing else (spec/60_exceptions.md R146). -/
def CompletesOrRaises (es : List Element) (s t : State) : Prop :=
  (NoErrorRaised s t ∧ ChangesOnly es s t) ∨ ∃ e, t = s.raise e

/-- A data write completes within the row of its MODE, or raises ERR_SEQ (spec/30_encoding.md R78). -/
theorem dataWrite_completesOrRaises (n : Nat) (w : Word) (s : State) :
    CompletesOrRaises (dataWriteSet s.mode) s (dataWrite n w s) := by
  rcases dataWrite_cases n w s with ⟨hm, hs⟩ | ⟨hm, hs⟩ | ⟨-, hs⟩ <;> rw [hs]
  · exact .inl ⟨shaAbsorb_raised n w s, hm ▸ shaAbsorb_changesOnly n w s⟩
  · exact .inl ⟨rfl, hm ▸ cyXor_changesOnly n w s⟩
  · exact .inr ⟨.seq, rfl⟩

/-- An operation completes within its row of the table, or raises an error (spec/10_state.md R43). -/
theorem exec_completesOrRaises {i : Instr} {s t : State} (h : exec i s = .next t) :
    CompletesOrRaises (writeSet i s.mode) s t := by
  cases i with
  | shaFinal =>
    rcases execShaFinal_cases s with ⟨-, hs⟩ | ⟨-, hs⟩ <;> cases hs.symm.trans h
    · refine .inl ⟨rfl, fun x hx => ?_⟩
      cases x <;> simp [writeSet] at hx <;> rfl
    · exact .inr ⟨.seq, rfl⟩
  | keyLoad =>
    rcases execKeyLoad_cases s with ⟨-, hs⟩ | ⟨-, hs⟩ <;> cases hs.symm.trans h
    · refine .inl ⟨rfl, fun x hx => ?_⟩
      cases x <;> simp [writeSet] at hx <;> rfl
    · exact .inr ⟨.noDigest, rfl⟩
  | wrDin1 w | wrDin2 w | wrDin3 w | wrDin4 w =>
    cases h
    exact dataWrite_completesOrRaises _ w s
  | _ =>
    cases h
    refine .inl ⟨rfl, fun x hx => ?_⟩
    cases x <;> simp [writeSet] at hx <;> rfl

/-- Every operation answers a next state (spec/60_exceptions.md R161). -/
theorem exec_next (i : Instr) (s : State) : ∃ t, exec i s = .next t := by
  cases i with
  | shaFinal => rcases execShaFinal_cases s with ⟨-, hs⟩ | ⟨-, hs⟩ <;> exact ⟨_, hs⟩
  | keyLoad => rcases execKeyLoad_cases s with ⟨-, hs⟩ | ⟨-, hs⟩ <;> exact ⟨_, hs⟩
  | _ => exact ⟨_, rfl⟩

/-- Settles O34: each operation completes within its row or raises an error, and the engine's step is BUSY and a draw. -/
theorem writeSetsHold : Obligations.WriteSetsHold := by
  refine ⟨fun i s => ?_, fun j k w s t h hne => ?_, fun s t hmoved hreset => ⟨?_, fun x hx => ?_⟩⟩
  · obtain ⟨t, h⟩ := exec_next i s
    rcases exec_completesOrRaises h with ⟨hquiet, hrow⟩ | ⟨e, rfl⟩
    · exact ⟨t, h, fun _ => hrow, fun hraised => absurd hquiet hraised⟩
    · refine ⟨_, h, fun hquiet => absurd hquiet (Nat.succ_ne_self s.raised), fun _ x hx => ?_⟩
      exact raise_changesOnly e s x (by simpa using hx)
  · cases h
    exact wordAt_setWordAt_ne s.key hne w
  · simp [step, hmoved]
  · obtain hnow | hengine := arbitrate_moved_frame hmoved
    · simp [hreset] at hnow
    · rw [hengine]
      cases x with
      | busy => exact absurd rfl hx
      | _ => rfl

/-- The operation that a step performs runs in the state without its event (spec/20_memory.md R61). -/
theorem step_of_performs {s : State} {i : Instr} (h : performs s = some i) :
    ∃ q n, step s = exec i { s with queue := q, draws := n } := by
  cases harb : arbitrate s with
  | moved u => simp [performs, harb] at h
  | perform a u =>
    cases hd : decode a with
    | reject r => simp [performs, harb, hd] at h
    | op j =>
      obtain rfl : j = i := by simpa [performs, harb, hd] using h
      refine ⟨u.queue, u.draws, ?_⟩
      rw [← arbitrate_perform_frame harb, ← perform_op hd]
      simp [step, harb]

/-- Raising an error changes an element only when it records the error in ERR (spec/60_exceptions.md R147). -/
theorem raise_changes_element {s : State} {e : Err} {x : Element} (hx : ¬SameElement x s (s.raise e)) :
    x = .err ∧ s.err = .none := by
  have hxerr : x = .err := by
    by_contra hne
    exact hx (raise_changesOnly e s x (by simpa using hne))
  subst hxerr
  refine ⟨rfl, ?_⟩
  by_contra hset
  exact hx (if_neg hset)

theorem suppress_changes_element {s : State} {d : Dir} {e : Err} {x : Element}
    (hx : ¬SameElement x s (s.suppress d e)) : x = .err ∧ s.err = .none := by
  rcases suppress_cases d e s with ⟨-, hs⟩ | ⟨-, hs⟩ <;> rw [hs] at hx <;> exact raise_changes_element hx

theorem suppress_raised (d : Dir) (e : Err) (s : State) : (s.suppress d e).raised = s.raised + 1 := by
  rcases suppress_cases d e s with ⟨-, hs⟩ | ⟨-, hs⟩ <;> rw [hs] <;> rfl

/-- A step that changes an element is a reset, ends a busy period, records an error, or performs an operation whose row names
the element (spec/10_state.md R43). -/
theorem step_changes_element {s t : State} {x : Element} (h : step s = .next t) (hx : ¬SameElement x s t) :
    resetNext s = true ∨ (x = .busy ∧ t.busy = false) ∨ (x = .err ∧ s.err = .none ∧ t.raised = s.raised + 1) ∨
    ∃ i, performs s = some i ∧ x ∈ writeSet i s.mode := by
  rcases step_next_cases h with hreset | hengine | ⟨d, e, q, n, ht⟩ | ⟨i, q, n, hi, hexec⟩
  · exact .inl hreset
  · refine .inr (.inl ⟨?_, by rw [hengine]⟩)
    by_contra hne
    rw [hengine] at hx
    cases x with
    | busy => exact hne rfl
    | _ => exact hx rfl
  · subst ht
    obtain ⟨hxerr, hnone⟩ := suppress_changes_element (s := { s with queue := q, draws := n }) hx
    exact .inr (.inr (.inl ⟨hxerr, hnone, suppress_raised d e _⟩))
  · rcases exec_completesOrRaises hexec with ⟨-, hrow⟩ | ⟨e, rfl⟩
    · refine .inr (.inr (.inr ⟨i, hi, ?_⟩))
      by_contra hout
      exact hx (hrow x hout)
    · obtain ⟨hxerr, hnone⟩ := raise_changes_element (s := { s with queue := q, draws := n }) hx
      exact .inr (.inr (.inl ⟨hxerr, hnone, rfl⟩))

/-! ### The rows that name ERR, KEY, KIDX and BUSY -/

/-- ERR is in the row of CLR_ERR alone. -/
theorem err_mem_writeSet {i : Instr} {m : Mode} (h : .err ∈ writeSet i m) : i = .clrErr := by
  cases i <;> cases m <;> simp [writeSet, dataWriteSet] at h ⊢

/-- KEY is in the rows of KEY_LOAD and the KEYj writes. -/
theorem key_mem_writeSet {i : Instr} {m : Mode} (h : .key ∈ writeSet i m) : i = .keyLoad ∨ ∃ j w, i = .wrKey j w := by
  cases i <;> cases m <;> simp [writeSet, dataWriteSet] at h ⊢

/-- KIDX is in the rows of CY_START and of the data writes in MODE = CY. -/
theorem kidx_mem_writeSet {i : Instr} {m : Mode} (h : .kidx ∈ writeSet i m) :
    i = .cyStart ∨ (0 < byteCount i ∧ m = .cy) := by
  cases i <;> cases m <;> simp [writeSet, dataWriteSet, byteCount] at h ⊢

/-- BUSY is in the rows of SHA_FINAL and of the data writes in MODE = SHA. -/
theorem busy_mem_writeSet {i : Instr} {m : Mode} (h : .busy ∈ writeSet i m) :
    i = .shaFinal ∨ (0 < byteCount i ∧ m = .sha) := by
  cases i <;> cases m <;> simp [writeSet, dataWriteSet, byteCount] at h ⊢

/-- Settles O33: ERR changes where an error is recorded, and in the row of CLR_ERR, which clears it as the reset does. -/
theorem errKeepsTheFirstError : Obligations.ErrKeepsTheFirstError := by
  intro s t h hne
  rcases step_changes_element (x := .err) h hne with hreset | ⟨hx, -⟩ | ⟨-, hnone, hraised⟩ | ⟨i, hi, hrow⟩
  · obtain ⟨rest, rfl⟩ := eq_platformReset_of_resetNext hreset h
    exact .inr ⟨rfl, .inr hreset⟩
  · cases hx
  · exact .inl ⟨hnone, hraised⟩
  · obtain rfl := err_mem_writeSet hrow
    obtain ⟨q, n, hstep⟩ := step_of_performs hi
    cases hstep.symm.trans h
    exact .inr ⟨rfl, .inl hi⟩

/-- A data write in MODE = CY (spec/30_encoding.md R78). -/
theorem exec_dataWrite_cy {i : Instr} {s : State} (hi : 0 < byteCount i) (hm : s.mode = .cy) :
    exec i s = .next (cyXor (byteCount i) (dataWord i) s) := by
  rw [exec_dataWrite hi]
  simp [dataWrite, hm]

/-- A data write in MODE = SHA (spec/30_encoding.md R78). -/
theorem exec_dataWrite_sha {i : Instr} {s : State} (hi : 0 < byteCount i) (hm : s.mode = .sha) :
    exec i s = .next (shaAbsorb (byteCount i) (dataWord i) s) := by
  rw [exec_dataWrite hi]
  simp [dataWrite, hm]

/-- A data write that moves KIDX is a full word, and moves it by one (spec/41_cypher.md R120). -/
theorem cyXor_kidx_of_ne {i : Instr} {w : Word} {s : State} (h : (cyXor (byteCount i) w s).kidx ≠ s.kidx) :
    (∃ v, i = .wrDin4 v) ∧ (cyXor (byteCount i) w s).kidx = s.kidx + 1 := by
  have hfull : byteCount i = 4 := by
    by_contra hshort
    exact h (by simp [hshort])
  refine ⟨?_, by simp [hfull]⟩
  cases i <;> simp [byteCount] at hfull ⊢

/-- Settles O36: the rows that name KEY are KEY_LOAD and the KEYj writes, and those that name KIDX are CY_START and the data
writes in MODE = CY, of which a full word alone moves KIDX. -/
theorem keyAndIndexChangeOnlyWhereNamed : Obligations.KeyAndIndexChangeOnlyWhereNamed := by
  intro s t h
  refine ⟨fun hne => ?_, fun hne => ?_⟩
  · rcases step_changes_element (x := .key) h hne with hreset | ⟨hx, -⟩ | ⟨hx, -⟩ | ⟨i, hi, hrow⟩
    · exact .inl hreset
    · cases hx
    · cases hx
    · obtain rfl | ⟨j, w, rfl⟩ := key_mem_writeSet hrow
      · exact .inr (.inl hi)
      · exact .inr (.inr ⟨j, w, hi⟩)
  · rcases step_changes_element (x := .kidx) h hne with hreset | ⟨hx, -⟩ | ⟨hx, -⟩ | ⟨i, hi, hrow⟩
    · exact .inl hreset
    · cases hx
    · cases hx
    · obtain rfl | ⟨hdata, hm⟩ := kidx_mem_writeSet hrow
      · exact .inr (.inl hi)
      · obtain ⟨q, n, hstep⟩ := step_of_performs hi
        rw [exec_dataWrite_cy (s := { s with queue := q, draws := n }) hdata hm] at hstep
        cases hstep.symm.trans h
        obtain ⟨⟨w, rfl⟩, hnext⟩ := cyXor_kidx_of_ne (s := { s with queue := q, draws := n }) hne
        exact .inr (.inr ⟨w, hi, hm, hnext⟩)

/-- Absorbing bytes makes BUSY 1 only by completing the block (spec/40_sha256.md R96, R107). -/
theorem absorbBytes_busy {bytes : List Byte} {s : State} (h : (absorbBytes bytes s).busy = true) :
    s.busy = true ∨ 64 ≤ s.blen.toNat + bytes.length := by
  induction bytes generalizing s with
  | nil => exact .inl h
  | cons b bytes ih =>
    rw [absorbBytes_cons] at h
    rcases absorbByte_cases b s with ⟨hfull, -⟩ | ⟨hroom, hs⟩
    · simp [hfull]
      omega
    · rw [hs] at h
      have hnext : (s.blen + 1).toNat = s.blen.toNat + 1 := by bv_omega
      rcases ih h with hbusy | hlen
      · exact .inl hbusy
      · right
        simp only [hnext] at hlen
        simp only [List.length_cons]
        omega

/-- Settles O37: the rows that name BUSY are SHA_FINAL and the data writes in MODE = SHA; SHA_FINAL completes in MODE = SHA
only, and a data write sets BUSY only by completing the block. -/
theorem busyRisesOnlyAtACompression : Obligations.BusyRisesOnlyAtACompression := by
  intro s t h hidle hbusy
  have hne : t.busy ≠ s.busy := by simp [hidle, hbusy]
  rcases step_changes_element (x := .busy) h hne with hreset | ⟨-, hend⟩ | ⟨hx, -⟩ | ⟨i, hi, hrow⟩
  · obtain ⟨rest, rfl⟩ := eq_platformReset_of_resetNext hreset h
    cases hbusy
  · simp [hend] at hbusy
  · cases hx
  · obtain ⟨q, n, hstep⟩ := step_of_performs hi
    rw [hstep] at h
    obtain rfl | ⟨hdata, hm⟩ := busy_mem_writeSet hrow
    · rcases execShaFinal_cases { s with queue := q, draws := n } with ⟨hm, -⟩ | ⟨-, hs⟩
      · exact ⟨hm, .inl hi⟩
      · cases hs.symm.trans h
        exact absurd rfl hne
    · rw [exec_dataWrite_sha (s := { s with queue := q, draws := n }) hdata hm] at h
      cases h
      rcases absorbBytes_busy hbusy with hwas | hfull
      · simp [hidle] at hwas
      · exact ⟨hm, .inr ⟨i, hi, hdata, by simpa using hfull⟩⟩

end Sys2Proof.Machine

/-! The hidden state: what a host can observe does not depend on H outside MODE = SHA, nor on the bytes of BLK beyond those
held. Every operation and every step is followed in two states that differ only there. -/

namespace Sys2Proof.Machine

open Sys2Proof.Safety

/-! ### The bytes held, while a byte is absorbed -/

/-- Storing a byte after those held extends them by it (spec/40_sha256.md R95). -/
theorem take_succ_blk_set (b : Byte) (s : State) :
    (s.blk.set s.blen.toNat b s.blen.isLt).toList.take (s.blen.toNat + 1) = s.held ++ [b] := by
  have hlt : s.blen.toNat < s.blk.toList.length := by simpa using s.blen.isLt
  rw [Vector.toList_set, List.take_add_one, List.take_set_of_le (Nat.le_refl _), List.getElem?_set_self hlt]
  rfl

/-- A byte that completes the block has it compressed at once (spec/40_sha256.md R95). -/
theorem absorbByte_of_full {s : State} (h : s.blen = 63) (b : Byte) :
    absorbByte b s = { s with
      blk := s.blk.set s.blen.toNat b s.blen.isLt, blen := 0, mlen := s.mlen + 8, busy := true,
      hash := compress s.hash (s.blk.set s.blen.toNat b s.blen.isLt).toList } :=
  if_pos h

/-- A byte that does not complete the block is stored (spec/40_sha256.md R95). -/
theorem absorbByte_of_room {s : State} (h : s.blen ≠ 63) (b : Byte) :
    absorbByte b s = { s with
      blk := s.blk.set s.blen.toNat b s.blen.isLt, blen := s.blen + 1, mlen := s.mlen + 8 } :=
  if_neg h

theorem held_of_blen_zero {s : State} (h : s.blen = 0) : s.held = [] := by
  simp [State.held, h]

/-- The block compressed is the bytes held and the one that completes it (spec/40_sha256.md R95). -/
theorem hash_absorbByte_of_full {s : State} (h : s.blen = 63) (b : Byte) :
    (absorbByte b s).hash = compress s.hash (s.held ++ [b]) := by
  rw [absorbByte_of_full h, ← take_succ_blk_set, List.take_of_length_le (by simp [h])]

/-- A byte that completes the block leaves none held (spec/40_sha256.md R95). -/
theorem held_absorbByte_of_full {s : State} (h : s.blen = 63) (b : Byte) : (absorbByte b s).held = [] := by
  rw [absorbByte_of_full h, held_of_blen_zero rfl]

/-- A byte that does not complete the block follows those held (spec/40_sha256.md R95). -/
theorem held_absorbByte_of_room {s : State} (h : s.blen ≠ 63) (b : Byte) : (absorbByte b s).held = s.held ++ [b] := by
  have hnext : (s.blen + 1).toNat = s.blen.toNat + 1 := by bv_omega
  rw [absorbByte_of_room h, ← take_succ_blk_set, State.held, hnext]

theorem hash_absorbByte_of_room {s : State} (h : s.blen ≠ 63) (b : Byte) : (absorbByte b s).hash = s.hash := by
  rw [absorbByte_of_room h]

theorem absorbByte_mode (b : Byte) (s : State) : (absorbByte b s).mode = s.mode := by
  rcases absorbByte_cases b s with ⟨-, hs⟩ | ⟨-, hs⟩ <;> rw [hs]

/-! ### Two states that differ only in the hidden state -/

section hidden

variable {s s' : State}

/-- Two states that differ only in the hidden state are one state with two values of H and BLK. -/
theorem hiddenEq_exists_update (h : HiddenEq s s') : ∃ hs bs, s' = { s with hash := hs, blk := bs } :=
  ⟨_, _, h.visible.symm⟩

/-- STATUS has no field of the hidden state (spec/10_state.md R38). -/
theorem statusWord_of_hiddenEq (h : HiddenEq s s') : statusWord s' = statusWord s := by
  obtain ⟨hs, bs, rfl⟩ := hiddenEq_exists_update h
  rfl

/-- Absorbing a byte in MODE = SHA, where H is visible, reads no byte of BLK beyond those held (spec/40_sha256.md R95). -/
theorem hiddenEq_absorbByte (h : HiddenEq s s') (hm : s.mode = .sha) (b : Byte) :
    HiddenEq (absorbByte b s) (absorbByte b s') := by
  have hblen : s'.blen = s.blen := by rw [← h.visible]
  have hvisible :
      { absorbByte b s with hash := (absorbByte b s').hash, blk := (absorbByte b s').blk } = absorbByte b s' := by
    obtain ⟨hs, bs, rfl⟩ := hiddenEq_exists_update h
    unfold absorbByte
    split <;> rfl
  rcases eq_or_ne s.blen 63 with hfull | hroom
  · have hfull' : s'.blen = 63 := hblen.trans hfull
    refine ⟨hvisible, ?_, fun _ => ?_⟩
    · rw [held_absorbByte_of_full hfull, held_absorbByte_of_full hfull']
    · rw [hash_absorbByte_of_full hfull, hash_absorbByte_of_full hfull', h.held, h.hash hm]
  · have hroom' : s'.blen ≠ 63 := hblen ▸ hroom
    refine ⟨hvisible, ?_, fun _ => ?_⟩
    · rw [held_absorbByte_of_room hroom, held_absorbByte_of_room hroom', h.held]
    · rw [hash_absorbByte_of_room hroom, hash_absorbByte_of_room hroom', h.hash hm]

theorem hiddenEq_absorbBytes (h : HiddenEq s s') (hm : s.mode = .sha) (bytes : List Byte) :
    HiddenEq (absorbBytes bytes s) (absorbBytes bytes s') := by
  induction bytes generalizing s s' with
  | nil => exact h
  | cons b bytes ih => exact ih (hiddenEq_absorbByte h hm b) ((absorbByte_mode b s).trans hm)

/-! The shared operations read nothing of the hidden state and leave it as it is. -/

theorem hiddenEq_raise (h : HiddenEq s s') (e : Err) : HiddenEq (s.raise e) (s'.raise e) :=
  ⟨congrArg (State.raise e) h.visible, h.held, h.hash⟩

theorem hiddenEq_reply (h : HiddenEq s s') (v : Word) : HiddenEq (s.reply v) (s'.reply v) :=
  ⟨congrArg (State.reply v) h.visible, h.held, h.hash⟩

theorem hiddenEq_endBusy (h : HiddenEq s s') : HiddenEq s.endBusy s'.endBusy :=
  ⟨congrArg State.endBusy h.visible, h.held, h.hash⟩

theorem hiddenEq_drawn (h : HiddenEq s s') : HiddenEq s.drawn s'.drawn :=
  ⟨congrArg State.drawn h.visible, h.held, h.hash⟩

theorem hiddenEq_setQueue (h : HiddenEq s s') (q : List Event) : HiddenEq (s.setQueue q) (s'.setQueue q) :=
  ⟨congrArg (State.setQueue q) h.visible, h.held, h.hash⟩

theorem hiddenEq_suppress (h : HiddenEq s s') (d : Dir) (e : Err) : HiddenEq (s.suppress d e) (s'.suppress d e) := by
  cases d with
  | read => exact hiddenEq_reply (hiddenEq_raise h e) 0
  | write => exact hiddenEq_raise h e

/-- Outside MODE = SHA the cypher neither reads nor writes H and BLK (spec/41_cypher.md R120). -/
theorem hiddenEq_cyXor (h : HiddenEq s s') (hm : s.mode = .cy) (n : Nat) (w : Word) :
    HiddenEq (cyXor n w s) (cyXor n w s') := by
  refine ⟨congrArg (cyXor n w) h.visible, h.held, fun hsha => ?_⟩
  by_cases hfull : n = 4 <;> simp [hfull, hm] at hsha

theorem hiddenEq_dataWrite (h : HiddenEq s s') (n : Nat) (w : Word) :
    HiddenEq (dataWrite n w s) (dataWrite n w s') := by
  have hmode : s'.mode = s.mode := by rw [← h.visible]
  unfold dataWrite
  rw [hmode]
  cases hm : s.mode with
  | sha => exact hiddenEq_absorbBytes h hm (streamBytes n w)
  | cy => exact hiddenEq_cyXor h hm n w
  | idle | cyEnd => exact hiddenEq_raise h .seq

/-- The digest is made of H, in MODE = SHA, the bytes held and L (spec/40_sha256.md R98, R99). -/
theorem finalHash_of_hiddenEq (h : HiddenEq s s') (hm : s.mode = .sha) : finalHash s = finalHash s' := by
  have hmlen : s'.mlen = s.mlen := by rw [← h.visible]
  rw [finalHash, finalHash, h.held, h.hash hm, hmlen]

/-- After SHA_FINAL H holds the digest and BLK a free value that the draws give (spec/40_sha256.md R99). -/
theorem hiddenEq_execShaFinal (h : HiddenEq s s') :
    ∃ t t', execShaFinal s = .next t ∧ execShaFinal s' = .next t' ∧ HiddenEq t t' := by
  have hfinal := finalHash_of_hiddenEq h
  obtain ⟨hs, bs, rfl⟩ := hiddenEq_exists_update h
  rcases execShaFinal_cases s with ⟨hm, ht⟩ | ⟨hm, ht⟩
  · rcases execShaFinal_cases { s with hash := hs, blk := bs } with ⟨-, ht'⟩ | ⟨hm', -⟩
    · rw [← hfinal hm] at ht'
      exact ⟨_, _, ht, ht', rfl, rfl, fun _ => rfl⟩
    · exact absurd hm hm'
  · rcases execShaFinal_cases { s with hash := hs, blk := bs } with ⟨hm', -⟩ | ⟨-, ht'⟩
    · exact absurd hm' hm
    · exact ⟨_, _, ht, ht', hiddenEq_raise h .seq⟩

/-- KEY_LOAD reads DVALID and DIGEST alone (spec/41_cypher.md R116). -/
theorem hiddenEq_execKeyLoad (h : HiddenEq s s') :
    ∃ t t', execKeyLoad s = .next t ∧ execKeyLoad s' = .next t' ∧ HiddenEq t t' := by
  obtain ⟨hs, bs, rfl⟩ := hiddenEq_exists_update h
  rcases execKeyLoad_cases s with ⟨hd, ht⟩ | ⟨hd, ht⟩
  · rcases execKeyLoad_cases { s with hash := hs, blk := bs } with ⟨-, ht'⟩ | ⟨hd', -⟩
    · exact ⟨_, _, ht, ht', rfl, h.held, h.hash⟩
    · simp [hd] at hd'
  · rcases execKeyLoad_cases { s with hash := hs, blk := bs } with ⟨hd', -⟩ | ⟨-, ht'⟩
    · simp [hd] at hd'
    · exact ⟨_, _, ht, ht', hiddenEq_raise h .noDigest⟩

/-- Two states with no bytes held and with the same H, if it is visible, differ only in the hidden state if they do so in
everything else. -/
theorem hiddenEq_of_blen_zero (hvisible : { s with hash := s'.hash, blk := s'.blk } = s') (hblen : s.blen = 0)
    (hhash : s.mode = .sha → s.hash = s'.hash) : HiddenEq s s' := by
  have hblen' : s'.blen = 0 := by rw [← hvisible, ← hblen]
  exact ⟨hvisible, by rw [held_of_blen_zero hblen, held_of_blen_zero hblen'], hhash⟩

/-- Every operation does the same in two states that differ only in the hidden state, and leaves two such states. -/
theorem hiddenEq_exec (h : HiddenEq s s') (i : Instr) :
    ∃ t t', exec i s = .next t ∧ exec i s' = .next t' ∧ HiddenEq t t' := by
  cases i with
  | shaFinal => exact hiddenEq_execShaFinal h
  | keyLoad => exact hiddenEq_execKeyLoad h
  | wrDin1 w | wrDin2 w | wrDin3 w | wrDin4 w => exact ⟨_, _, rfl, rfl, hiddenEq_dataWrite h _ w⟩
  | shaInit =>
    obtain ⟨hs, bs, rfl⟩ := hiddenEq_exists_update h
    exact ⟨_, _, rfl, rfl, hiddenEq_of_blen_zero rfl rfl fun _ => rfl⟩
  | cyStart | abort =>
    obtain ⟨hs, bs, rfl⟩ := hiddenEq_exists_update h
    exact ⟨_, _, rfl, rfl, hiddenEq_of_blen_zero rfl rfl nofun⟩
  | _ =>
    obtain ⟨hs, bs, rfl⟩ := hiddenEq_exists_update h
    exact ⟨_, _, rfl, rfl, rfl, h.held, h.hash⟩

/-- Every access does the same in two states that differ only in the hidden state, legal or not. -/
theorem hiddenEq_perform (h : HiddenEq s s') (a : Access) :
    ∃ t t', perform a s = .next t ∧ perform a s' = .next t' ∧ HiddenEq t t' := by
  cases hd : decode a with
  | op i =>
    rw [perform_op hd, perform_op hd]
    exact hiddenEq_exec h i
  | reject r => exact ⟨_, _, perform_reject hd s, perform_reject hd s', hiddenEq_suppress h a.dir r.err⟩

/-- Two turns of the same agent, in states that differ only in the hidden state. -/
def HiddenTurnEq : Turn → Turn → Prop
  | .moved t, .moved t' => HiddenEq t t'
  | .perform a t, .perform a' t' => a = a' ∧ HiddenEq t t'
  | .moved _, .perform _ _ | .perform _ _, .moved _ => False

/-- A reset leaves no byte held and draws the same H and BLK (spec/10_state.md R42). -/
theorem hiddenEq_platformReset (h : HiddenEq s s') : HiddenEq s.platformReset s'.platformReset := by
  obtain ⟨hs, bs, rfl⟩ := hiddenEq_exists_update h
  exact hiddenEq_of_blen_zero rfl rfl nofun

/-- Which agent moves depends on the events, BUSY and the draws alone (spec/20_memory.md R58, R59). -/
theorem hiddenTurnEq_arbitrate (h : HiddenEq s s') : HiddenTurnEq (arbitrate s) (arbitrate s') := by
  have hqueue : s'.queue = s.queue := by rw [← h.visible]
  have hbusy : s'.busy = s.busy := by rw [← h.visible]
  have hdraws : s'.draws = s.draws := by rw [← h.visible]
  simp only [arbitrate, hqueue, hbusy, hdraws]
  rcases s.queue with _ | ⟨a | _, rest⟩
  · exact hiddenEq_endBusy h
  · dsimp only
    split_ifs
    · exact ⟨rfl, hiddenEq_setQueue h rest⟩
    · exact hiddenEq_endBusy h
    · exact hiddenEq_drawn (hiddenEq_endBusy h)
    · exact ⟨rfl, hiddenEq_drawn (hiddenEq_setQueue h rest)⟩
  · exact hiddenEq_platformReset (hiddenEq_setQueue h rest)

/-- A step is answered, and does the same in two states that differ only in the hidden state. -/
theorem hiddenEq_step (h : HiddenEq s s') :
    ∃ t t', step s = .next t ∧ step s' = .next t' ∧ HiddenEq t t' := by
  have hturn := hiddenTurnEq_arbitrate h
  unfold step
  cases ht : arbitrate s with
  | moved t =>
    cases ht' : arbitrate s' with
    | moved t' => exact ⟨t, t', rfl, rfl, by simpa [ht, ht', HiddenTurnEq] using hturn⟩
    | perform a' t' => simp [ht, ht', HiddenTurnEq] at hturn
  | perform a t =>
    cases ht' : arbitrate s' with
    | moved t' => simp [ht, ht', HiddenTurnEq] at hturn
    | perform a' t' =>
      obtain ⟨rfl, hbefore⟩ : a = a' ∧ HiddenEq t t' := by simpa [ht, ht', HiddenTurnEq] using hturn
      exact hiddenEq_perform hbefore a

/-- A run is answered, and does the same in two states that differ only in the hidden state. -/
theorem hiddenEq_run (k : Nat) (h : HiddenEq s s') :
    ∃ t t', core.run k s = .next t ∧ core.run k s' = .next t' ∧ HiddenEq t t' := by
  induction k generalizing s s' with
  | zero => exact ⟨s, s', rfl, rfl, h⟩
  | succ k ih =>
    obtain ⟨u, u', hu, hu', hafter⟩ := hiddenEq_step h
    have hnext : core.run (k + 1) s = core.run k u := by
      simp only [Host.Core.run, core, hu]
    have hnext' : core.run (k + 1) s' = core.run k u' := by
      simp only [Host.Core.run, core, hu']
    rw [hnext, hnext']
    exact ih hafter

end hidden

/-- Settles O40: a step follows two states that differ only in the hidden state. -/
theorem hiddenStateIsNeverRead : Obligations.HiddenStateIsNeverRead := by
  intro s s' t heq h
  obtain ⟨u, t', hu, hstep', hafter⟩ := hiddenEq_step heq
  cases hu.symm.trans h
  exact ⟨t', hstep', hafter⟩

/-- Settles O41: after reset no byte is held and MODE is IDLE, so two values of H and BLK are a difference in the hidden
state alone, and every run keeps it there. -/
theorem resetDrawsAreNeverObserved : Obligations.ResetDrawsAreNeverObserved := by
  intro events hs bytes k
  have hreset :
      HiddenEq { State.reset with queue := events } { State.reset with queue := events, hash := hs, blk := bytes } :=
    hiddenEq_of_blen_zero rfl rfl nofun
  obtain ⟨t, t', hrun, hrun', hafter⟩ := hiddenEq_run k hreset
  exact ⟨t, t', hrun, hrun', by rw [← hafter.visible], statusWord_of_hiddenEq hafter⟩

end Sys2Proof.Machine

/-! The shared memory of host and engine: the window on the bus and the byte order of data words. -/

namespace Sys2Proof.Machine

/-- The base of the window is a multiple of 128 (spec/20_memory.md R46). -/
theorem engineBase_mod : Config.engineBase % 128 = 0 :=
  Nat.mul_mod_right 128 Config.enginePage

/-- The bus address of an offset selects that offset (spec/20_memory.md R46). -/
theorem windowOffset_busAddress (off : Offset) : windowOffset (busAddress off) = some off := by
  have hoff : off.toNat < 128 := off.isLt
  rcases windowOffset_cases (busAddress off) with ⟨-, -, hsome⟩ | ⟨houtside, -⟩
  · simpa [busAddress] using hsome
  · exact absurd ⟨Nat.le_add_right .., Nat.add_lt_add_left hoff _⟩ houtside

/-- An address outside the 128 bytes selects no offset (spec/20_memory.md R46). -/
theorem windowOffset_outside {addr : Nat} (h : addr < Config.engineBase ∨ Config.engineBase + 0x7F < addr) :
    windowOffset addr = none := by
  rcases windowOffset_cases addr with ⟨hlow, hhigh, -⟩ | ⟨-, hnone⟩
  · omega
  · exact hnone

/-- Settles O15: the base, the addresses inside the window and the addresses outside it. -/
theorem windowSelectsOffsets : Obligations.WindowSelectsOffsets :=
  ⟨engineBase_mod, windowOffset_busAddress, fun _ => windowOffset_outside⟩

/-- The four bytes of a word, the most significant first (spec/00_scope.md R11). -/
theorem be32_eq (w : Word) :
    be32 w = [w.extractLsb' 24 8, w.extractLsb' 16 8, w.extractLsb' 8 8, w.extractLsb' 0 8] := rfl

/-- The bytes that a short data word carries are the first bytes of the word (spec/20_memory.md R54). -/
theorem streamBytes_eq_take_be32 {n : Nat} (hn : n ≤ 4) (w : Word) : streamBytes n w = (be32 w).take n := by
  rw [be32, streamBytes, streamBytes, ← List.map_take, List.take_range, Nat.min_eq_left hn]

theorem be32_getD {k : Nat} (hk : k < 4) (w : Word) : (be32 w).getD k 0 = streamByte w k := by
  simp [be32, streamBytes, hk]

/-- Assembling a word from its four bytes is the inverse of taking it apart (spec/00_scope.md R11). -/
theorem wordBe_be32 (w : Word) : wordBe (be32 w) 0 = w := by
  have hbytes : wordBe (be32 w) 0 = w.extractLsb' 24 8 ++ w.extractLsb' 16 8 ++ w.extractLsb' 8 8 ++ w.extractLsb' 0 8 := rfl
  simp only [hbytes, BitVec.extractLsb'_append_extractLsb'_eq_extractLsb', BitVec.extractLsb'_eq_self]

/-- The byte view of eight words (spec/10_state.md R30). -/
theorem wordsByte_eq_getD_be32 (v : Vector Word 8) {k : Nat} (hk : k / 4 < 8) :
    wordsByte v k = (be32 v[k / 4]).getD (k % 4) 0 := by
  have hword : wordAt v (BitVec.ofNat 3 (k / 4)) = v[k / 4] := by
    simp [wordAt, Nat.mod_eq_of_lt hk]
  rw [wordsByte, hword, be32_getD (Nat.mod_lt k (by decide))]

/-- Settles O26: the bytes of a data word, the word of its bytes, and the bytes of eight words. -/
theorem streamBytesAreBigEndian : Obligations.StreamBytesAreBigEndian := by
  refine ⟨fun n w hn => ?_, wordBe_be32, fun v k hk => wordsByte_eq_getD_be32 v (by omega)⟩
  rw [streamBytes_eq_take_be32 hn, be32_eq]

end Sys2Proof.Machine

/-! A busy period: what a step does while it lasts, and how it ends. -/

namespace Sys2Proof.Machine

/-- With no event waiting a step is the engine's (spec/20_memory.md R58). -/
theorem step_of_queue_nil {s : State} (h : s.queue = []) : step s = .next s.endBusy := by
  simp [step, arbitrate, h]

/-- A busy period holds every access but a legal STATUS read: the engine's step comes first (spec/20_memory.md R59). -/
theorem step_of_held_access {s : State} {a : Access} {rest : List Event} (hbusy : s.busy = true)
    (hq : s.queue = .access a :: rest) (ha : decode a ≠ .op .rdStatus) : step s = .next s.endBusy := by
  have hheld : isStatusRead a = false := by simpa [isStatusRead] using ha
  simp [step, arbitrate, hq, hbusy, hheld]

/-- In a busy period a legal STATUS read is performed, or the engine's step comes first; either takes a draw
(spec/20_memory.md R59). -/
theorem step_of_busy_statusRead {s : State} {a : Access} {rest : List Event} (hbusy : s.busy = true)
    (hq : s.queue = .access a :: rest) (ha : decode a = .op .rdStatus) :
    step s = exec .rdStatus (s.setQueue rest).drawn ∨ step s = .next s.endBusy.drawn := by
  have hread : isStatusRead a = true := (isStatusRead_iff a).2 ha
  cases hfirst : Config.engineFirst s.draws with
  | false => exact .inl (by simp [step, arbitrate, hq, hbusy, hread, hfirst, perform_op ha])
  | true => exact .inr (by simp [step, arbitrate, hq, hbusy, hread, hfirst])

/-- Settles O4: the step is the engine's. -/
theorem engineEndsTheBusyPeriodAlone : Obligations.EngineEndsTheBusyPeriodAlone :=
  fun _ => step_of_queue_nil

/-- Settles O3: a held access waits for the engine's step, a STATUS read need not. -/
theorem busyPeriodHoldsAccesses : Obligations.BusyPeriodHoldsAccesses :=
  fun _ _ _ hbusy hq => ⟨step_of_held_access hbusy hq, step_of_busy_statusRead hbusy hq⟩

/-- A step of a busy period ends it, or takes one waiting event (a STATUS read) and leaves BUSY as it is. -/
theorem step_of_busy {s : State} (hbusy : s.busy = true) :
    ∃ t, step s = .next t ∧ (t.busy = false ∨ t.busy = true ∧ ∃ e, s.queue = e :: t.queue) := by
  rcases hq : s.queue with _ | ⟨a | _, rest⟩
  · exact ⟨_, step_of_queue_nil hq, .inl rfl⟩
  · by_cases ha : decode a = .op .rdStatus
    · rcases step_of_busy_statusRead hbusy hq ha with hread | hengine
      · exact ⟨_, hread, .inr ⟨hbusy, .access a, rfl⟩⟩
      · exact ⟨_, hengine, .inl rfl⟩
    · exact ⟨_, step_of_held_access hbusy hq ha, .inl rfl⟩
  · exact ⟨_, step_reset_event hq, .inl rfl⟩

/-- A run of one step more takes the step and goes on from there. -/
theorem run_succ {s t : State} (h : step s = .next t) (k : Nat) : core.run (k + 1) s = core.run k t := by
  simp only [Host.Core.run, core, h]

/-- Settles O8, by induction on the waiting events: each step of the busy period that does not end it takes one. -/
theorem busyPeriodAlwaysEnds : Obligations.BusyPeriodAlwaysEnds := by
  intro s hbusy
  induction hq : s.queue generalizing s with
  | nil => exact ⟨1, s.endBusy, by simp, run_succ (step_of_queue_nil hq) 0, rfl⟩
  | cons e rest ih =>
    obtain ⟨t, hstep, hended | ⟨hstill, e', hq'⟩⟩ := step_of_busy hbusy
    · exact ⟨1, t, by simp, run_succ hstep 0, hended⟩
    · obtain ⟨-, hrest⟩ := List.cons.inj (hq'.symm.trans hq)
      obtain ⟨k, u, hk, hrun, hended⟩ := ih t hstill hrest
      exact ⟨k + 1, u, Nat.succ_le_succ hk, (run_succ hstep k).trans hrun, hended⟩

end Sys2Proof.Machine

/-! The message absorbed so far, the digest that SHA_FINAL publishes for it, and the host procedure SHA_DIGEST. -/

namespace Sys2Proof.Machine

open Sys2Proof.Safety

/-! ### Whole blocks and the padded message -/

/-- Blocks of a byte sequence are compressed in order: the first part's, and then the others' from there
(spec/40_sha256.md R99). -/
theorem compressBlocks_append {q : Nat} {xs : List Byte} (h : xs.length = 64 * q) (n : Nat) (hs : Vector Word 8)
    (ys : List Byte) : compressBlocks (q + n) hs (xs ++ ys) = compressBlocks n (compressBlocks q hs xs) ys := by
  induction q generalizing hs xs with
  | zero =>
    obtain rfl : xs = [] := List.eq_nil_of_length_eq_zero h
    simp
  | succ q ih =>
    have hfirst : 64 ≤ xs.length := by omega
    rw [Nat.add_right_comm, compressBlocks_succ, compressBlocks_succ, List.take_append_of_le_length hfirst,
      List.drop_append_of_le_length hfirst, ih (by simp; omega)]

/-- A padded final chunk is one block or two (spec/40_sha256.md R98). -/
theorem pad_length_mod {m : List Byte} (h : m.length ≤ 63) (len : Count) : (pad m len).length % 64 = 0 := by
  rcases Nat.lt_or_ge m.length 56 with hshort | hlong
  · rw [pad_short (by omega)]
    simp
    omega
  · rw [pad_long hlong]
    simp
    omega

/-- Padding the whole message pads its final chunk, the bytes after the last whole block (spec/40_sha256.md R98). -/
theorem paddedMessage_append {q : Nat} {xs held : List Byte} (hxs : xs.length = 64 * q) (hheld : held.length ≤ 63) :
    paddedMessage (xs ++ held) = xs ++ pad held (BitVec.ofNat 64 (8 * (xs ++ held).length)) := by
  have hmod : (xs ++ held).length % 64 = held.length := by
    rw [List.length_append]
    omega
  rw [paddedMessage, hmod]
  rcases Nat.lt_or_ge held.length 56 with hshort | hlong
  · have hzeros : (119 - held.length) % 64 = 55 - held.length := by omega
    rw [pad_short (by omega), hzeros]
    simp only [List.append_assoc]
  · have hzeros : (119 - held.length) % 64 = (63 - held.length) + 56 := by omega
    rw [pad_long hlong, hzeros, List.replicate_add]
    simp only [List.append_assoc]

/-! ### The message absorbed so far -/

/-- In state `s` the message `m` has been absorbed since SHA_INIT: its whole blocks are in H, the bytes after them are held
in BLK, and L is its bit length (spec/40_sha256.md R95, R101). -/
structure Absorbed (m : List Byte) (s : State) : Prop where
  mode   : s.mode = .sha
  blocks : ∃ q xs, xs.length = 64 * q ∧ m = xs ++ s.held ∧ s.hash = compressBlocks q initialVector xs
  mlen   : s.mlen = BitVec.ofNat 64 (8 * m.length)

/-- SHA_INIT starts an empty message (spec/40_sha256.md R94). -/
theorem exec_shaInit_absorbed (s : State) : ∃ t, exec .shaInit s = .next t ∧ Absorbed [] t ∧
    t = { s with hash := t.hash, blen := t.blen, mlen := t.mlen, dvalid := t.dvalid, mode := t.mode } :=
  ⟨_, rfl, ⟨rfl, ⟨0, [], rfl, (held_of_blen_zero rfl).symm, rfl⟩, rfl⟩, rfl⟩

theorem absorbByte_mlen (b : Byte) (s : State) : (absorbByte b s).mlen = s.mlen + 8 := by
  rcases absorbByte_cases b s with ⟨-, hs⟩ | ⟨-, hs⟩ <;> rw [hs]

/-- One byte more: the block it completes joins the whole blocks, or the byte joins those held (spec/40_sha256.md R95). -/
theorem Absorbed.absorbByte {m : List Byte} {s : State} (h : Absorbed m s) (b : Byte) :
    Absorbed (m ++ [b]) (absorbByte b s) where
  mode := (absorbByte_mode b s).trans h.mode
  blocks := by
    obtain ⟨q, xs, hlen, hm, hhash⟩ := h.blocks
    by_cases hfull : s.blen = 63
    · have hblock : (s.held ++ [b]).length = 64 := by simp [hfull]
      refine ⟨q + 1, xs ++ (s.held ++ [b]), ?_, ?_, ?_⟩
      · rw [List.length_append, hblock, hlen]
        omega
      · rw [held_absorbByte_of_full hfull, hm, List.append_nil, List.append_assoc]
      · rw [hash_absorbByte_of_full hfull, compressBlocks_append hlen, compressBlocks_succ, compressBlocks_zero, hhash,
          List.take_of_length_le hblock.le]
    · refine ⟨q, xs, hlen, ?_, ?_⟩
      · rw [held_absorbByte_of_room hfull, hm, List.append_assoc]
      · rw [hash_absorbByte_of_room hfull, hhash]
  mlen := by
    rw [absorbByte_mlen, h.mlen, List.length_append, Nat.mul_add, BitVec.ofNat_add]
    rfl

theorem Absorbed.absorbBytes {m : List Byte} {s : State} (h : Absorbed m s) (bytes : List Byte) :
    Absorbed (m ++ bytes) (absorbBytes bytes s) := by
  induction bytes generalizing m s with
  | nil => simpa using h
  | cons b bytes ih => simpa using ih (h.absorbByte b)

/-- SHA_FINAL's digest of the message absorbed is its SHA-256 digest (spec/40_sha256.md R99, R102). -/
theorem Absorbed.finalHash {m : List Byte} {s : State} (h : Absorbed m s) : finalHash s = sha256 m := by
  obtain ⟨q, xs, hlen, hm, hhash⟩ := h.blocks
  have hheld : s.held.length ≤ 63 := by
    rw [held_length]
    exact Nat.le_of_lt_succ s.blen.isLt
  have hpadded : paddedMessage m = xs ++ pad s.held s.mlen := by
    rw [h.mlen, hm, paddedMessage_append hlen hheld]
  have hwhole := pad_length_mod hheld s.mlen
  have hcount : (paddedMessage m).length / 64 = q + (pad s.held s.mlen).length / 64 := by
    rw [hpadded, List.length_append]
    omega
  rw [sha256, hcount, hpadded, compressBlocks_append hlen, ← hhash]
  rfl

/-- SHA_FINAL publishes the SHA-256 digest of the message absorbed (spec/40_sha256.md R99). -/
theorem Absorbed.exec_shaFinal {m : List Byte} {s : State} (h : Absorbed m s) : exec .shaFinal s = .next { s with
    hash := sha256 m, digest := sha256 m, dvalid := true, blen := 0, mode := .idle, busy := true,
    blk := Config.unspecifiedBlock s.draws, draws := s.draws + 1 } := by
  rcases execShaFinal_cases s with ⟨-, hs⟩ | ⟨hmode, -⟩
  · rw [h.finalHash] at hs
    exact hs
  · exact absurd h.mode hmode

/-! ### The host procedure -/

theorem absorbBytes_mode (bytes : List Byte) (s : State) : (absorbBytes bytes s).mode = s.mode := by
  rw [absorbBytes_frame]

/-- A data write at the head of a program, in a message: its stream bytes are absorbed (spec/40_sha256.md R96). -/
theorem performAll_shaWrite_cons {i : Instr} {s : State} (hi : 0 < byteCount i) (hm : s.mode = .sha) (is : List Instr) :
    performAll ((i :: is).map encode) s = performAll (is.map encode) (absorbBytes (dataBytes i) s) := by
  rw [performAll_encode_cons (exec_dataWrite_sha hi hm), dataBytes_eq, shaAbsorb]

/-- The data writes of a byte sequence absorb its bytes, however they fall into words (spec/30_encoding.md R80). -/
theorem performAll_bytesOps (bytes : List Byte) {s : State} (hm : s.mode = .sha) :
    performAll ((bytesOps bytes).map encode) s = .next (absorbBytes bytes s) := by
  induction bytes using bytesOps.induct generalizing s with
  | case1 b0 b1 b2 b3 rest ih =>
    rw [bytesOps, performAll_shaWrite_cons (by simp [byteCount]) hm, ih ((absorbBytes_mode _ s).trans hm),
      ← absorbBytes_append, dataBytes, streamBytes_full]
    rfl
  | case2 b0 b1 b2 =>
    rw [bytesOps, performAll_shaWrite_cons (by simp [byteCount]) hm, dataBytes, (streamBytes_short b0 b1 b2).1]
    rfl
  | case3 b0 b1 =>
    rw [bytesOps, performAll_shaWrite_cons (by simp [byteCount]) hm, dataBytes, (streamBytes_short b0 b1 0).2.1]
    rfl
  | case4 b0 =>
    rw [bytesOps, performAll_shaWrite_cons (by simp [byteCount]) hm, dataBytes, (streamBytes_short b0 0 0).2.2]
    rfl
  | case5 => rfl

/-- Reads of DIGEST words return them, the last one read first, and change nothing else (spec/42_control.md R134). -/
theorem performAll_rdDigest (js : List Index) (s : State) :
    performAll ((js.map Instr.rdDigest).map encode) s =
      .next { s with replies := (js.map (wordAt s.digest)).reverse ++ s.replies } := by
  induction js generalizing s with
  | nil => rfl
  | cons j js ih =>
    have hread : exec (.rdDigest j) s = .next (s.reply (wordAt s.digest j)) := rfl
    rw [List.map_cons, performAll_encode_cons hread, ih]
    simp [State.reply]

/-- The words of a register array in order. -/
theorem map_wordAt_eq_toList (v : Vector Word 8) : ((List.range 8).map (BitVec.ofNat 3)).map (wordAt v) = v.toList := by
  refine List.ext_getElem (by simp) fun k hk _ => ?_
  have hlt : k < 8 := by simpa using hk
  simp [wordAt, Nat.mod_eq_of_lt hlt]

/-- The eight reads that end SHA_DIGEST (spec/30_encoding.md R80). -/
theorem performAll_readDigestOps (s : State) :
    performAll (readDigestOps.map encode) s = .next { s with replies := s.digest.toList.reverse ++ s.replies } := by
  have hreads : readDigestOps = ((List.range 8).map (BitVec.ofNat 3)).map Instr.rdDigest := by
    rw [List.map_map]
    rfl
  rw [hreads, performAll_rdDigest, map_wordAt_eq_toList]

/-- Settles O49: SHA_INIT starts the empty message, the data writes absorb `bytes`, SHA_FINAL publishes the digest of the
message absorbed, and the reads return its words. -/
theorem shaDigestProcedureReadsTheDigest : Obligations.ShaDigestProcedureReadsTheDigest := by
  intro bytes s
  obtain ⟨start, hstart, hempty, hframe⟩ := exec_shaInit_absorbed s
  have hmessage : Absorbed bytes (absorbBytes bytes start) := by simpa using hempty.absorbBytes bytes
  have hprogram : shaDigestOps bytes = .shaInit :: (bytesOps bytes ++ .shaFinal :: readDigestOps) := rfl
  rw [hprogram, performAll_encode_cons hstart, List.map_append,
    performAll_append (performAll_bytesOps bytes hempty.mode), performAll_encode_cons hmessage.exec_shaFinal,
    performAll_readDigestOps]
  have hmlen := hmessage.mlen
  refine ⟨_, rfl, ?replies, rfl, rfl, rfl, rfl, hmlen, ?frame⟩
  case replies => rw [absorbBytes_frame, hframe]
  case frame =>
    rw [absorbBytes_frame, hframe]
    simp

/-- Settles O11: each operation's access lies in a row of the map, which the decoder reads back. -/
theorem decodeOfEncodeIsTheOperation : Obligations.DecodeOfEncodeIsTheOperation :=
  decode_encode

/-- Settles O51: the words that CY_APPLY reads carry the cypher of its input, and the byte count follows them. -/
theorem cypherXorsEachByteWithItsKeyByte : Obligations.CypherXorsEachByteWithItsKeyByte :=
  performAll_cyApplyOps

end Sys2Proof.Machine

/-! The decoder against the access map: the map's accesses are those of the operations, and each check that fails rejects the
access with the error of its place in the order of checks. -/

namespace Sys2Proof.Machine

open Sys2Proof.Safety

/-! ### An access of legal form -/

/-- The alignment of an offset in the decoder's spelling and in the map's (spec/20_memory.md R48). -/
theorem aligned_iff (a : Access) : a.aligned = true ↔ a.off.extractLsb' 0 2 = 0#2 := by
  rw [Access.aligned, beq_iff_eq, ← BitVec.toNat_inj]
  simp

theorem decode_wrongSize {a : Access} (h : a.sizeOk = false) : decode a = .reject .wrongSize := by
  have hsize : a.size ≠ 4 := by simpa [Access.sizeOk] using h
  simp [decode, hsize]

theorem decode_misaligned {a : Access} (hsize : a.sizeOk = true) (h : a.aligned = false) :
    decode a = .reject .misaligned := by
  have hfour : a.size = 4 := by simpa [Access.sizeOk] using hsize
  have hoff : a.off.extractLsb' 0 2 ≠ 0#2 := by
    rw [Ne, ← aligned_iff, h]
    decide
  simp [decode, hfour, hoff]

/-- An access of legal form goes to the rows of its direction (spec/30_encoding.md R71, R79). -/
theorem decode_of_form {a : Access} (hsize : a.sizeOk = true) (haligned : a.aligned = true) :
    (a.dir = .read → decode a = decodeRead a.off) ∧ (a.dir = .write → decode a = decodeWrite a.off a.wdata) := by
  have hfour : a.size = 4 := by simpa [Access.sizeOk] using hsize
  have hoff := (aligned_iff a).1 haligned
  constructor <;> intro hdir <;> simp [decode, hfour, hoff, hdir]

/-- The decoder does not look at the data word of a READ (spec/30_encoding.md R71). -/
theorem decode_eq_of_sameOperation {a b : Access} (h : a.sameOperation b = true) : decode a = decode b := by
  obtain ⟨dir, off, size, w⟩ := a
  obtain ⟨dir', off', size', w'⟩ := b
  simp only [Access.sameOperation, Bool.and_eq_true, beq_iff_eq, Bool.or_eq_true] at h
  obtain ⟨⟨⟨rfl, rfl⟩, rfl⟩, rfl | rfl⟩ := h <;> rfl

/-! ### The command words -/

/-- A WRITE of CMD reads its word (spec/30_encoding.md R69). -/
theorem decodeWrite_cmd (w : Word) : decodeWrite 0x04 w = decodeCommand w := by
  simp [decodeWrite, reservedOffsets]

/-- A word of 7 or more is no command: a reserved bit is set, or the opcode is reserved (spec/30_encoding.md R70, R74). -/
theorem decodeCommand_reject {w : Word} (h : 7 ≤ w.toNat) : ∃ r, decodeCommand w = .reject r ∧ r.err = .cmd := by
  unfold decodeCommand
  by_cases hrsv : w.extractLsb' 8 24 = 0#24
  · have hopc : (w.extractLsb' 0 8).toNat = w.toNat := by
      have hhigh : w.toNat / 256 % 2 ^ 24 = 0 := by
        simpa [BitVec.extractLsb'_toNat, Nat.shiftRight_eq_div_pow] using congrArg BitVec.toNat hrsv
      simp
      omega
    rw [if_neg (not_not_intro hrsv), hopc]
    split
    case h_8 => exact ⟨_, rfl, rfl⟩
    all_goals omega
  · exact ⟨_, if_pos hrsv, rfl⟩

/-- A word below 256 is the command word of its low byte (spec/30_encoding.md R69). -/
theorem busWrite_eq_commandWrite {w : Word} {opc : Byte} (h : w.toNat = opc.toNat) :
    busWrite 0x04 w = commandWrite opc := by
  have hword : w = 0#24 ++ opc := by
    apply BitVec.eq_of_toNat_eq
    rw [h, toNat_append_eq_add]
    simp
  rw [hword, commandWrite]

/-- The commands in the order of their opcodes (spec/30_encoding.md R70). -/
def commandOps : List Instr := [.nop, .shaInit, .shaFinal, .keyLoad, .cyStart, .abort, .clrErr]

/-- The words 0 to 6 are command words (spec/30_encoding.md R70). -/
theorem exists_encode_eq_cmdWrite {w : Word} (h : w.toNat < 7) : ∃ i, encode i = busWrite 0x04 w := by
  have htable : ∀ n < 7, ∃ i ∈ commandOps, encode i = commandWrite (BitVec.ofNat 8 n) := by decide
  obtain ⟨i, -, hi⟩ := htable w.toNat h
  exact ⟨i, hi.trans (busWrite_eq_commandWrite (by simp; omega)).symm⟩

/-! ### The map's accesses are those of the operations -/

/-- The reads (spec/30_encoding.md R71). -/
def readOps : List Instr :=
  [.rdId, .rdStatus, .rdDout, .rdCycntLo, .rdCycntHi, .rdMlenLo, .rdMlenHi] ++
    (List.range 8).flatMap fun j => [.rdDigest (BitVec.ofNat 3 j), .rdKey (BitVec.ofNat 3 j)]

/-- The WRITE rows of the map that carry a free data word (spec/30_encoding.md R71). -/
def dataRows (w : Word) : List (Offset × Instr) :=
  [(0x10, .wrDin1 w), (0x14, .wrDin2 w), (0x18, .wrDin3 w), (0x1C, .wrDin4 w)] ++
    (List.range 8).map fun j => (arrayOffset 0b11#2 (BitVec.ofNat 3 j), .wrKey (BitVec.ofNat 3 j) w)

theorem exists_encode_eq_busRead {off : Offset} (haligned : (busRead off).aligned = true)
    (hmapped : (busRead off).mapped = true) : ∃ i, encode i = busRead off := by
  have hrows : ∀ o : Offset, (busRead o).aligned = true → (busRead o).mapped = true →
      ∃ i ∈ readOps, encode i = busRead o := by decide
  obtain ⟨i, -, hi⟩ := hrows off haligned hmapped
  exact ⟨i, hi⟩

theorem encode_of_mem_dataRows {w : Word} {p : Offset × Instr} (h : p ∈ dataRows w) : encode p.2 = busWrite p.1 w := by
  simp only [dataRows, List.mem_append, List.mem_cons, List.not_mem_nil, or_false, List.mem_map] at h
  obtain (rfl | rfl | rfl | rfl) | ⟨j, -, rfl⟩ := h <;> rfl

/-- An aligned WRITE of the map writes CMD, or has a row with a free data word. -/
theorem exists_mem_dataRows {off : Offset} (w : Word) (haligned : (busWrite off w).aligned = true)
    (hmapped : (busWrite off w).mapped = true) : off = 0x04 ∨ ∃ i, (off, i) ∈ dataRows w := by
  have hoffsets : ∀ o : Offset, (busWrite o 0).aligned = true → (busWrite o 0).mapped = true →
      o = 0x04 ∨ o ∈ (dataRows 0).map Prod.fst := by decide
  have hsame : (dataRows 0).map Prod.fst = (dataRows w).map Prod.fst := by simp [dataRows]
  rcases hoffsets off haligned hmapped with hcmd | hrow
  · exact .inl hcmd
  · rw [hsame, List.mem_map] at hrow
    obtain ⟨⟨o, i⟩, hmem, rfl⟩ := hrow
    exact .inr ⟨i, hmem⟩

/-- A legal access is the access of an operation (spec/30_encoding.md R67). -/
theorem exists_sameOperation_of_wellFormed {a : Access} (h : a.wellFormed = true) :
    ∃ i, a.sameOperation (encode i) = true := by
  obtain ⟨dir, off, size, w⟩ := a
  simp only [Access.wellFormed, Bool.and_eq_true] at h
  obtain ⟨⟨⟨hsize, haligned⟩, hmapped⟩, hcommand⟩ := h
  obtain rfl : size = 4 := by simpa [Access.sizeOk] using hsize
  cases dir with
  | read =>
    obtain ⟨i, hi⟩ := exists_encode_eq_busRead (off := off) haligned hmapped
    exact ⟨i, by simp [hi, Access.sameOperation, busRead]⟩
  | write =>
    obtain ⟨i, hi⟩ : ∃ i, encode i = busWrite off w := by
      rcases exists_mem_dataRows (off := off) w haligned hmapped with rfl | ⟨i, hmem⟩
      · exact exists_encode_eq_cmdWrite (by simpa [Access.commandOk, Access.code, commandWordOk] using hcommand)
      · exact ⟨i, encode_of_mem_dataRows hmem⟩
    exact ⟨i, by simp [hi, Access.sameOperation, busWrite]⟩

theorem decode_op_of_wellFormed {a : Access} (h : a.wellFormed = true) : ∃ i, decode a = .op i := by
  obtain ⟨i, hi⟩ := exists_sameOperation_of_wellFormed h
  exact ⟨i, (decode_eq_of_sameOperation hi).trans (decode_encode i)⟩

/-! ### The accesses that the map does not hold -/

theorem decodeRead_reject_of_unmapped {off : Offset} (haligned : (busRead off).aligned = true)
    (hmapped : (busRead off).mapped = false) : ∃ r, decodeRead off = .reject r ∧ r.err = .bus := by
  have hoffsets : ∀ o : Offset, (busRead o).aligned = true → (busRead o).mapped = false →
      o ∈ reservedOffsets ∨ o ∈ writeOnlyOffsets := by decide
  unfold decodeRead
  split_ifs with hreserved hwriteOnly
  · exact ⟨_, rfl, rfl⟩
  · exact ⟨_, rfl, rfl⟩
  all_goals exact absurd (hoffsets off haligned hmapped) (by simp [hreserved, hwriteOnly])

theorem decodeWrite_reject_of_unmapped {off : Offset} (w : Word) (haligned : (busWrite off w).aligned = true)
    (hmapped : (busWrite off w).mapped = false) : ∃ r, decodeWrite off w = .reject r ∧ r.err = .bus := by
  have hoffsets : ∀ o : Offset, (busWrite o 0).aligned = true → (busWrite o 0).mapped = false →
      o.extractLsb' 5 2 ≠ 0b11#2 ∧ o.toNat ∉ [0x04, 0x10, 0x14, 0x18, 0x1C] := by decide
  obtain ⟨hbank, hslot⟩ := hoffsets off haligned hmapped
  unfold decodeWrite
  by_cases hreserved : off ∈ reservedOffsets
  · exact ⟨_, if_pos hreserved, rfl⟩
  · rw [if_neg hreserved, if_neg hbank]
    split
    case h_6 => exact ⟨_, rfl, rfl⟩
    all_goals simp_all

/-- An access that is not legal is rejected: ERR_CMD if its command word alone is wrong, ERR_BUS otherwise
(spec/30_encoding.md R75, spec/60_exceptions.md R148). -/
theorem decode_reject_of_illFormed {a : Access} (h : a.wellFormed = false) :
    ∃ r, decode a = .reject r ∧ r.err = if a.sizeOk && a.aligned && a.mapped then .cmd else .bus := by
  cases hsize : a.sizeOk with
  | false => exact ⟨_, decode_wrongSize hsize, rfl⟩
  | true =>
    cases haligned : a.aligned with
    | false => exact ⟨_, decode_misaligned hsize haligned, rfl⟩
    | true =>
      obtain ⟨hread, hwrite⟩ := decode_of_form hsize haligned
      obtain ⟨dir, off, size, w⟩ := a
      cases hmapped : Access.mapped ⟨dir, off, size, w⟩ with
      | false =>
        cases dir with
        | read =>
          rw [hread rfl]
          exact decodeRead_reject_of_unmapped haligned hmapped
        | write =>
          rw [hwrite rfl]
          exact decodeWrite_reject_of_unmapped w haligned hmapped
      | true =>
        obtain ⟨hcode, hword⟩ : Access.code ⟨dir, off, size, w⟩ = 0x84 ∧ 7 ≤ w.toNat := by
          simpa [Access.wellFormed, hsize, haligned, hmapped, Access.commandOk, commandWordOk] using h
        obtain ⟨rfl, rfl⟩ : dir = .write ∧ off = 0x04 := by
          have hcodes : ∀ o : Offset, 0#1 ++ o ≠ 0x84#8 ∧ (1#1 ++ o = 0x84#8 → o = 0x04) := by decide
          cases dir with
          | read => exact absurd hcode (hcodes off).1
          | write => exact ⟨rfl, (hcodes off).2 hcode⟩
        obtain ⟨r, hr, herr⟩ := decodeCommand_reject hword
        exact ⟨r, (hwrite rfl).trans ((decodeWrite_cmd w).trans hr), herr⟩

/-- Settles O13: a legal access is some operation's, and each check that fails rejects with its error. -/
theorem decodeAcceptsExactlyTheMap : Obligations.DecodeAcceptsExactlyTheMap :=
  fun _ => ⟨decode_op_of_wellFormed, decode_reject_of_illFormed⟩

/-- An access that decodes to an operation is legal (spec/30_encoding.md R79). -/
theorem wellFormed_of_decode_op {a : Access} {i : Instr} (h : decode a = .op i) : a.wellFormed = true := by
  by_contra hill
  obtain ⟨r, hr, -⟩ := decode_reject_of_illFormed (Bool.eq_false_of_not_eq_true hill)
  simp [h] at hr

/-- Settles O12: an access that decodes to an operation is legal, hence some operation's access, and that operation is the
one it decodes to. -/
theorem decodeDeterminesTheAccess : Obligations.DecodeDeterminesTheAccess := by
  intro a i h
  obtain ⟨j, hj⟩ := exists_sameOperation_of_wellFormed (wellFormed_of_decode_op h)
  have hdecoded : decode a = .op j := (decode_eq_of_sameOperation hj).trans (decode_encode j)
  obtain rfl : i = j := by simpa [h] using hdecoded
  exact hj

/-- Settles O10: each sample word is the access of its operation. -/
theorem sampleWordsDecode : Obligations.SampleWordsDecode :=
  ⟨decode_encode .shaFinal, decode_encode .cyStart, decode_encode .clrErr, decode_encode .rdStatus,
    decode_encode (.rdDigest 5), decode_encode (.rdKey 3), decode_encode (.wrKey 6 0xE3B0C442),
    decode_encode (.wrDin3 0x61626300)⟩

/-! ### An access performed in a step -/

/-- A WRITE of CMD with the word of a command's opcode performs the command (spec/30_encoding.md R70). -/
theorem perform_cmdWrite {i : Instr} {opc : Byte} {w : Word} (hi : encode i = commandWrite opc)
    (hw : w.toNat = opc.toNat) (s : State) : perform (busWrite 0x04 w) s = exec i s := by
  rw [busWrite_eq_commandWrite hw, ← hi, perform_encode]

/-- A WRITE of CMD with a word of 7 or more raises ERR_CMD (spec/30_encoding.md R74). -/
theorem perform_cmdWrite_illegal {w : Word} (h : 7 ≤ w.toNat) (s : State) :
    perform (busWrite 0x04 w) s = .next (s.raise .cmd) := by
  obtain ⟨r, hr, herr⟩ := decodeCommand_reject h
  have haligned : (busWrite 0x04 w).aligned = true := by simp [Access.aligned, busWrite]
  have hrow : decode (busWrite 0x04 w) = decodeWrite 0x04 w := (decode_of_form rfl haligned).2 rfl
  rw [perform_reject (hrow.trans ((decodeWrite_cmd w).trans hr)), herr]
  rfl

/-- Settles O14: the words 0 to 6 are those of the seven commands, and any other word is suppressed with ERR_CMD. -/
theorem commandWordSelectsTheCommand : Obligations.CommandWordSelectsTheCommand := by
  intro w s
  have hraise : s.raise .cmd = { s with err := if s.err = .none then .cmd else s.err, raised := s.raised + 1 } := rfl
  rw [← hraise]
  split_ifs with h0 h1 h2 h3 h4 h5 h6
  · exact perform_cmdWrite (opc := 0) rfl h0 s
  · exact perform_cmdWrite (opc := 1) rfl h1 s
  · exact perform_cmdWrite (opc := 2) rfl h2 s
  · exact perform_cmdWrite (opc := 3) rfl h3 s
  · exact perform_cmdWrite (opc := 4) rfl h4 s
  · exact perform_cmdWrite (opc := 5) rfl h5 s
  · exact perform_cmdWrite (opc := 6) rfl h6 s
  · exact perform_cmdWrite_illegal (by omega) s

/-- Without a busy period the host's next access is performed, in the state without its event (spec/20_memory.md R61). -/
theorem step_of_access {s : State} {a : Access} {rest : List Event} (hq : s.queue = .access a :: rest)
    (hidle : s.busy = false) : step s = perform a (s.setQueue rest) := by
  simp [step, arbitrate, hq, hidle]

/-- Settles O1: the access is performed, and runs the operation it decodes to. -/
theorem stepRunsTheDecodedOperation : Obligations.StepRunsTheDecodedOperation := by
  intro s a rest i hq hidle hdecode
  rw [step_of_access hq hidle, perform_op hdecode]
  rfl

/-- An opcode-table row stands for an operation when the access of its bits decodes to it (spec/30_encoding.md R68, R69). -/
theorem decodeTableWord_eq_some {nbits w : Nat} {i : Instr} (h : decodeTableWord nbits w = some i) :
    ∃ a, tableAccess nbits w = some a ∧ decode a = .op i := by
  unfold decodeTableWord at h
  cases ha : tableAccess nbits w with
  | none => simp [ha] at h
  | some a =>
    cases hd : decode a with
    | op j => exact ⟨a, rfl, by simpa [ha, hd] using h⟩
    | reject r => simp [ha, hd] at h

/-- Settles O2: `withFetchWord` makes the row's access the next event, with no busy period. -/
theorem fetchedTableWordRuns : Obligations.FetchedTableWordRuns := by
  intro s nbits w i h
  obtain ⟨a, ha, hdecode⟩ := decodeTableWord_eq_some h
  have hissued : s.withFetchWord nbits w = s.issue a := by simp [State.withFetchWord, ha]
  rw [hissued, step_of_access (State.issue_queue s a) (State.issue_busy s a), perform_op hdecode]
  rfl

/-- Settles O5: an access that is not legal is rejected with the error of its failed check, and suppressed. -/
theorem illegalAccessIsSuppressed : Obligations.IllegalAccessIsSuppressed := by
  intro s a rest hq hidle hill
  obtain ⟨r, hr, herr⟩ := decode_reject_of_illFormed hill
  rw [step_of_access hq hidle, perform_reject hr, herr]
  rcases suppress_cases a.dir (if a.sizeOk && a.aligned && a.mapped then Err.cmd else Err.bus) (s.setQueue rest) with
    ⟨hdir, hs⟩ | ⟨hdir, hs⟩ <;> rw [hs, hdir] <;> rfl

end Sys2Proof.Machine

/-! The data words: the bytes beyond the count, and what each operation does to MODE and the count of errors. -/

namespace Sys2Proof.Machine

open Sys2Proof.Safety

/-! ### The ignored bytes -/

section ignored

variable {n : Nat} {w w' : Word}

/-- Words that agree from bit `k` on have those bits in common. -/
theorem getLsbD_eq_of_div_eq {k i : Nat} (h : w.toNat / 2 ^ k = w'.toNat / 2 ^ k) (hi : k ≤ i) :
    w.getLsbD i = w'.getLsbD i := by
  have hbit := congrArg (Nat.testBit · (i - k)) h
  rw [← BitVec.testBit_toNat, ← BitVec.testBit_toNat]
  simpa [Nat.testBit_div_two_pow, Nat.sub_add_cancel hi] using hbit

/-- Words that agree in the top `n` bytes carry the same stream bytes (spec/30_encoding.md R73). -/
theorem streamBytes_congr (hn : n ≤ 4) (h : w.toNat / 2 ^ (32 - 8 * n) = w'.toNat / 2 ^ (32 - 8 * n)) :
    streamBytes n w = streamBytes n w' := by
  refine List.map_congr_left fun k hk => ?_
  have hkn : k < n := List.mem_range.1 hk
  ext i hi
  have hbit : w.getLsbD (24 - 8 * k + i) = w'.getLsbD (24 - 8 * k + i) := getLsbD_eq_of_div_eq h (by omega)
  simp [← BitVec.getLsbD_eq_getElem, getLsbD_streamByte, hbit]

/-- Under MASK(n) the cypher sees the top `n` bytes alone (spec/41_cypher.md R119, R120). -/
theorem xor_and_mask_congr (h : w.toNat / 2 ^ (32 - 8 * n) = w'.toNat / 2 ^ (32 - 8 * n)) (v : Word) :
    (w ^^^ v) &&& mask n = (w' ^^^ v) &&& mask n := by
  ext i hi
  simp only [← BitVec.getLsbD_eq_getElem, BitVec.getLsbD_and, BitVec.getLsbD_xor, getLsbD_mask]
  by_cases hkept : 32 ≤ 8 * n + i
  · rw [getLsbD_eq_of_div_eq h (by omega)]
  · simp [hkept]

/-- Words that agree in the top `n` bytes do the same when written to DINn, in every MODE (spec/30_encoding.md R73, R78). -/
theorem dataWrite_congr (hn : n ≤ 4) (h : w.toNat / 2 ^ (32 - 8 * n) = w'.toNat / 2 ^ (32 - 8 * n)) (s : State) :
    dataWrite n w s = dataWrite n w' s := by
  have hsha : shaAbsorb n w s = shaAbsorb n w' s := by rw [shaAbsorb, shaAbsorb, streamBytes_congr hn h]
  have hcy : cyXor n w s = cyXor n w' s := by rw [cyXor, cyXor, xor_and_mask_congr h]
  rw [dataWrite, dataWrite, hsha, hcy]

end ignored

/-- Settles O27: every data word decodes, and a data write uses only the bytes of its count. -/
theorem ignoredBytesHaveNoEffect : Obligations.IgnoredBytesHaveNoEffect := by
  refine ⟨fun w => ?_, fun w w' n i i' s hmem h => ?_⟩
  · exact congrArg₂ List.cons (decode_encode (.wrDin1 w)) <| congrArg₂ List.cons (decode_encode (.wrDin2 w)) <|
      congrArg₂ List.cons (decode_encode (.wrDin3 w)) <| congrArg₂ List.cons (decode_encode (.wrDin4 w)) rfl
  · simp only [List.mem_cons, Prod.mk.injEq, List.not_mem_nil, or_false] at hmem
    obtain ⟨rfl, rfl, rfl⟩ | ⟨rfl, rfl, rfl⟩ | ⟨rfl, rfl, rfl⟩ := hmem <;>
      exact congrArg Host.Outcome.next (dataWrite_congr (by decide) h s)

/-! ### The mode table -/

/-- Settles O31: the entries of SHA_FINAL and of the data writes are by MODE, that of KEY_LOAD is by DVALID, and every other
operation completes with one MODE. -/
theorem modeTableHolds : Obligations.ModeTableHolds := by
  intro i s
  cases i with
  | shaFinal =>
    rcases execShaFinal_cases s with ⟨hm, hs⟩ | ⟨hm, hs⟩
    · rw [hm]
      exact ⟨_, hs, rfl, rfl, fun h => absurd rfl h⟩
    · refine ⟨_, hs, ?_⟩
      cases hmode : s.mode with
      | sha => exact absurd hmode hm
      | idle | cy | cyEnd => exact ⟨hmode, rfl, fun _ => by rw [← hmode]; rfl⟩
  | keyLoad =>
    rcases execKeyLoad_cases s with ⟨hd, hs⟩ | ⟨hd, hs⟩
    · exact ⟨_, hs, rfl, by simp [hd], fun h => absurd rfl h⟩
    · exact ⟨_, hs, rfl, by simp [hd], fun _ => rfl⟩
  | wrDin1 w | wrDin2 w | wrDin3 w | wrDin4 w =>
    refine ⟨_, rfl, ?_⟩
    rcases dataWrite_cases _ w s with ⟨hm, hs⟩ | ⟨hm, hs⟩ | ⟨hm | hm, hs⟩ <;> rw [hs, hm]
    · exact ⟨(absorbBytes_mode ..).trans hm, shaAbsorb_raised .., fun h => absurd (shaAbsorb_raised ..) h⟩
    · exact ⟨by simp [hm], rfl, fun h => absurd rfl h⟩
    · exact ⟨hm, rfl, fun _ => by rw [← hm]; rfl⟩
    · exact ⟨hm, rfl, fun _ => by rw [← hm]; rfl⟩
  | _ => exact ⟨_, rfl, rfl, rfl, fun h => absurd rfl h⟩

end Sys2Proof.Machine

/-! The digest of any message, however it is split and whatever comes between its data writes, and SHA_INIT. -/

namespace Sys2Proof.Machine

open Sys2Proof.Safety

/-! ### The message between SHA_INIT and SHA_FINAL -/

/-- The message absorbed is a matter of MODE, H, the bytes held and L alone (spec/40_sha256.md R101). -/
theorem Absorbed.congr {m : List Byte} {s t : State} (h : Absorbed m s) (hmode : t.mode = s.mode)
    (hhash : t.hash = s.hash) (hheld : t.held = s.held) (hmlen : t.mlen = s.mlen) : Absorbed m t where
  mode := hmode.trans h.mode
  blocks := by
    rw [hheld, hhash]
    exact h.blocks
  mlen := hmlen.trans h.mlen

/-- An erroneous access leaves the message as it is (spec/60_exceptions.md R146). -/
theorem Absorbed.suppress {m : List Byte} {s : State} (h : Absorbed m s) (d : Dir) (e : Err) :
    Absorbed m (s.suppress d e) := by
  rcases suppress_cases d e s with ⟨-, hs⟩ | ⟨-, hs⟩ <;> rw [hs] <;> exact h.congr rfl rfl rfl rfl

/-- A data write appends its stream bytes to the message (spec/40_sha256.md R96, R101). -/
theorem Absorbed.exec_dataWrite {m : List Byte} {s : State} (h : Absorbed m s) {i : Instr} (hi : 0 < byteCount i) :
    ∃ t, exec i s = .next t ∧ Absorbed (m ++ dataBytes i) t := by
  rw [dataBytes_eq]
  exact ⟨_, exec_dataWrite_sha hi h.mode, h.absorbBytes _⟩

/-- An operation that keeps the message appends the stream bytes it carries, none unless it is a data write
(spec/40_sha256.md R101). -/
theorem Absorbed.exec {m : List Byte} {s : State} (h : Absorbed m s) {i : Instr} (hi : keepsMessage (encode i) = true) :
    ∃ t, exec i s = .next t ∧ Absorbed (m ++ dataBytes i) t := by
  cases i with
  | wrDin1 w | wrDin2 w | wrDin3 w | wrDin4 w => exact h.exec_dataWrite (by simp [byteCount])
  | shaInit | shaFinal | cyStart | abort => simp [keepsMessage, decode_encode] at hi
  | keyLoad =>
    rw [dataBytes, List.append_nil]
    rcases execKeyLoad_cases s with ⟨-, hs⟩ | ⟨-, hs⟩ <;> exact ⟨_, hs, h.congr rfl rfl rfl rfl⟩
  | _ =>
    rw [dataBytes, List.append_nil]
    exact ⟨_, rfl, h.congr rfl rfl rfl rfl⟩

/-- An access that keeps the message appends the bytes it carries (spec/40_sha256.md R101). -/
theorem Absorbed.perform {m : List Byte} {s : State} (h : Absorbed m s) {a : Access} (ha : keepsMessage a = true) :
    ∃ t, perform a s = .next t ∧ Absorbed (m ++ accessBytes a) t := by
  cases hd : decode a with
  | op i =>
    rw [perform_op hd, accessBytes, hd]
    exact h.exec (by rwa [keepsMessage, decode_encode, ← hd])
  | reject r =>
    rw [perform_reject hd, accessBytes, hd, List.append_nil]
    exact ⟨_, rfl, h.suppress a.dir r.err⟩

/-- Accesses that keep the message append their bytes in order, however the message is split (spec/40_sha256.md R101). -/
theorem Absorbed.performAll {m : List Byte} {s : State} (h : Absorbed m s) {as : List Access}
    (has : ∀ a ∈ as, keepsMessage a = true) :
    ∃ t, performAll as s = .next t ∧ Absorbed (m ++ as.flatMap accessBytes) t := by
  induction as generalizing m s with
  | nil => exact ⟨s, rfl, by simpa using h⟩
  | cons a as ih =>
    obtain ⟨hhead, htail⟩ := List.forall_mem_cons.1 has
    obtain ⟨u, hu, hafter⟩ := h.perform hhead
    obtain ⟨t, ht, hend⟩ := ih hafter htail
    exact ⟨t, (performAll_cons hu as).trans ht, by simpa using hend⟩

/-- Settles O47: SHA_INIT starts the empty message, by induction on the accesses they append their bytes to it, and SHA_FINAL
publishes the digest of the message absorbed. -/
theorem digestIsSha256OfTheMessage : Obligations.DigestIsSha256OfTheMessage := by
  intro as s has
  obtain ⟨start, hstart, hempty, -⟩ := exec_shaInit_absorbed s
  obtain ⟨u, hrun, hmessage⟩ := hempty.performAll has
  rw [List.nil_append] at hmessage
  have hfinal := (perform_encode .shaFinal u).trans hmessage.exec_shaFinal
  rw [List.cons_append, performAll_cons ((perform_encode .shaInit s).trans hstart), performAll_append hrun,
    performAll_cons hfinal]
  exact ⟨_, rfl, rfl, rfl, rfl, rfl, hmessage.mlen⟩

/-- The empty message is one block: 0x80 and zeros (spec/40_sha256.md R110). -/
theorem sha256_nil : sha256 [] =
    #v[0xe3b0c442, 0x98fc1c14, 0x9afbf4c8, 0x996fb924, 0x27ae41e4, 0x649b934c, 0xa495991b, 0x7852b855] := by
  decide +kernel

/-- Settles O48: the message between SHA_INIT and SHA_FINAL is empty. -/
theorem emptyMessageKnownAnswer : Obligations.EmptyMessageKnownAnswer := by
  intro s
  obtain ⟨t, hrun, hdigest, -⟩ := digestIsSha256OfTheMessage [] s (by simp)
  exact ⟨t, hrun, hdigest.trans sha256_nil⟩

/-! ### SHA_INIT -/

/-- A command word with a reserved bit set is not the command of its opcode (spec/30_encoding.md R70, R74). -/
theorem reservedBitsRefused (opc : Nat) (s : State) : ReservedBitsRefused opc s :=
  fun _ _ hreserved => perform_cmdWrite_illegal (by omega) s

/-- Settles O21: SHA_INIT by its definition, the initial vector written out. -/
theorem shaInitStartsAMessage : Obligations.ShaInitStartsAMessage :=
  fun s => ⟨rfl, reservedBitsRefused 1 s⟩

end Sys2Proof.Machine

/-! The SHA-256 functions bit by bit, the message schedule, the rounds and the padding. -/

namespace Sys2Proof.Machine

open Sys2Proof.Safety

/-! ### The functions -/

/-- A rotation put together from two shifts is Lean's own (spec/00_scope.md R10). -/
theorem rotr_eq_rotateRight {n : Nat} (h : n < 32) (x : Word) : rotr n x = x.rotateRight n := by
  rw [BitVec.rotateRight_def, Nat.mod_eq_of_lt h]
  rfl

/-- Ch chooses between two bits by the first (spec/40_sha256.md R85). -/
theorem getLsbD_ch (x y z : Word) (i : Nat) :
    (ch x y z).getLsbD i = if x.getLsbD i then y.getLsbD i else z.getLsbD i := by
  simp only [ch, BitVec.getLsbD_xor, BitVec.getLsbD_and, BitVec.getLsbD_not]
  cases x.getLsbD i with
  | true => simp
  | false => simpa using BitVec.lt_of_getLsbD

/-- Maj takes the majority of three bits (spec/40_sha256.md R86). -/
theorem getLsbD_maj (x y z : Word) (i : Nat) :
    (maj x y z).getLsbD i = decide (2 ≤ (x.getLsbD i).toNat + (y.getLsbD i).toNat + (z.getLsbD i).toNat) := by
  have hmajority : ∀ p q r : Bool,
      ((p && q) ^^ (p && r) ^^ (q && r)) = decide (2 ≤ p.toNat + q.toNat + r.toNat) := by decide
  simp only [maj, BitVec.getLsbD_xor, BitVec.getLsbD_and, hmajority]

/-- Settles O42: Ch and Maj by their bits, and the rotations of the sigma functions are Lean's own. -/
theorem shaFunctionsBitByBit : Obligations.ShaFunctionsBitByBit :=
  ⟨getLsbD_ch, getLsbD_maj, fun x => by
    simp [bigSigma0, bigSigma1, smallSigma0, smallSigma1, shr, rotr_eq_rotateRight]⟩

/-! ### The schedule and the rounds -/

/-- Extending a schedule keeps the words it has at its front (spec/40_sha256.md R91). -/
theorem take_extendSchedule (n : Nat) (ws : List Word) : (extendSchedule n ws).take ws.length = ws := by
  induction n generalizing ws with
  | zero => exact List.take_length
  | succ n ih =>
    have hlonger := congrArg (List.take ws.length) (ih (ws ++ [nextScheduleWord ws]))
    rw [List.take_take, List.take_left, List.length_append, Nat.min_eq_left (Nat.le_add_right ..)] at hlonger
    exact hlonger

/-- Every added word is the one that follows the words before it (spec/40_sha256.md R91). -/
theorem extendSchedule_getD_eq_next {n t : Nat} {ws : List Word} (hle : ws.length ≤ t) (hlt : t < ws.length + n) :
    (extendSchedule n ws).getD t 0 = nextScheduleWord ((extendSchedule n ws).take t) := by
  induction n generalizing ws with
  | zero => omega
  | succ n ih =>
    rcases Nat.eq_or_lt_of_le hle with rfl | hlater
    · rw [take_extendSchedule, extendSchedule, extendSchedule_getD (by simp)]
      simp [List.getD]
    · exact ih (ws := ws ++ [nextScheduleWord ws]) (by simpa using hlater) (by simp; omega)

/-- The first sixteen words are the block's, big-endian (spec/40_sha256.md R91). -/
theorem schedule_getD_of_lt {t : Nat} (h : t < 16) (block : List Byte) :
    (schedule block).getD t 0 = wordBe block (4 * t) := by
  rw [schedule, extendSchedule_getD (by simpa using h)]
  simp [List.getD, h]

/-- The recurrence over the words before it (spec/40_sha256.md R91). -/
theorem nextScheduleWord_take {t : Nat} {ws : List Word} (h16 : 16 ≤ t) (ht : t ≤ ws.length) :
    nextScheduleWord (ws.take t) = smallSigma1 (ws.getD (t - 2) 0) + ws.getD (t - 7) 0 +
      smallSigma0 (ws.getD (t - 15) 0) + ws.getD (t - 16) 0 := by
  have hearlier : ∀ k, 0 < k → (ws.take t).getD (t - k) 0 = ws.getD (t - k) 0 := fun k hk => by
    rw [List.getD_eq_getElem?_getD, List.getElem?_take_of_lt (by omega), List.getD_eq_getElem?_getD]
  simp only [nextScheduleWord, List.length_take_of_le ht, hearlier _ (by decide : 0 < 2),
    hearlier _ (by decide : 0 < 7), hearlier _ (by decide : 0 < 15), hearlier _ (by decide : 0 < 16)]

/-- Settles O44: the block's words at the front of the schedule, and the recurrence for each word added. -/
theorem scheduleFollowsTheRecurrence : Obligations.ScheduleFollowsTheRecurrence := by
  intro block _
  refine ⟨schedule_length block, fun t ht => schedule_getD_of_lt ht block, fun t h16 h64 => ?_⟩
  have hadded : (schedule block).getD t 0 = nextScheduleWord ((schedule block).take t) :=
    extendSchedule_getD_eq_next (by simpa using h16) (by simpa using h64)
  exact hadded.trans (nextScheduleWord_take h16 (by simpa using h64.le))

/-- Settles O45, by induction on the rounds: the equations and the initial values determine the working state. -/
theorem compressionIsSixtyFourRounds : Obligations.CompressionIsSixtyFourRounds := by
  intro hs block a b c d e f g h _ ha hb hc hd he hf hg hh hround
  have hworking : ∀ t, t ≤ 64 → workingAfter t hs block = ⟨a t, b t, c t, d t, e t, f t, g t, h t⟩ := by
    intro t
    induction t with
    | zero =>
      intro _
      rw [workingAfter_zero, ha, hb, hc, hd, he, hf, hg, hh]
      rfl
    | succ t ih =>
      intro ht
      obtain ⟨ha', hb', hc', hd', he', hf', hg', hh'⟩ := hround t ht
      rw [workingAfter_succ ht, ih (Nat.le_of_succ_le ht), ha', hb', hc', hd', he', hf', hg', hh']
      rfl
  exact compress_of_workingAfter (hworking 64 le_rfl)

/-! ### The padding -/

/-- The eight bytes of a counter read big-endian are the counter (spec/00_scope.md R11). -/
theorem foldl_be64 (d : Count) : (be64 d).foldl (fun v b => v * 256 + b.toNat) 0 = d.toNat := by
  have hbytes : d.toNat < 2 ^ 64 := d.isLt
  simp [be64, List.range_succ, Nat.shiftRight_eq_div_pow]
  omega

/-- A padded final chunk is the message bytes, 0x80, the fewest zeros that fill a block with the length field, and the length
(spec/40_sha256.md R98). -/
theorem pad_eq {m : List Byte} (h : m.length ≤ 63) (len : Count) :
    ∃ z, m.length + z + 9 = (if m.length ≤ 55 then 64 else 128) ∧
      pad m len = m ++ 0x80 :: (List.replicate z 0 ++ be64 len) := by
  rcases Nat.lt_or_ge m.length 56 with hshort | hlong
  · refine ⟨55 - m.length, ?_, ?_⟩
    · rw [if_pos (by omega)]
      omega
    · rw [pad_short (by omega)]
      simp
  · refine ⟨63 - m.length + 56, ?_, ?_⟩
    · rw [if_neg (by omega)]
      omega
    · rw [pad_long hlong, List.replicate_add]
      simp

/-- Settles O46: the parts of the padded chunk, each at its place. -/
theorem paddingFillsWholeBlocks : Obligations.PaddingFillsWholeBlocks := by
  intro m len h
  obtain ⟨z, hlen, hpad⟩ := pad_eq h len
  have hpadLength : (pad m len).length = m.length + z + 9 := by
    rw [hpad]
    simp
    omega
  have hlast : m.length + z + 9 - 8 = (m ++ 0x80 :: List.replicate z 0).length := by
    simp
    omega
  have hsplit : pad m len = (m ++ 0x80 :: List.replicate z 0) ++ be64 len := by simp [hpad]
  refine ⟨hpadLength.trans hlen, ?_, ?_, fun i hmi hi => ?_, ?_⟩
  · rw [hpad, List.take_left]
  · simp [hpad, List.getD]
  · obtain ⟨k, rfl⟩ : ∃ k, i = m.length + (k + 1) := ⟨i - m.length - 1, by omega⟩
    have hzero : k < z := by omega
    rw [hpad, List.getD_eq_getElem?_getD, List.getElem?_append_right (Nat.le_add_right ..), Nat.add_sub_cancel_left,
      List.getElem?_cons_succ, List.getElem?_append_left (by simpa using hzero)]
    simp [hzero]
  · rw [hpadLength, hlast, hsplit, List.drop_left, foldl_be64]

end Sys2Proof.Machine

/-! The tables of SHA-256 as roots of primes. -/

namespace Sys2Proof.Machine

open Sys2Proof.Safety

/-- The first 64 primes, eight a line (spec/40_sha256.md R83). -/
def firstPrimes : List Nat :=
  [2, 3, 5, 7, 11, 13, 17, 19] ++
  [23, 29, 31, 37, 41, 43, 47, 53] ++
  [59, 61, 67, 71, 73, 79, 83, 89] ++
  [97, 101, 103, 107, 109, 113, 127, 131] ++
  [137, 139, 149, 151, 157, 163, 167, 173] ++
  [179, 181, 191, 193, 197, 199, 211, 223] ++
  [227, 229, 233, 239, 241, 251, 257, 263] ++
  [269, 271, 277, 281, 283, 293, 307, 311]

/-- The numbers below a bound that have a property stand in the order in which they have it. -/
theorem nth_eq_getD_filter_range {p : Nat → Prop} [DecidablePred p] {n t : Nat}
    (h : t < ((List.range n).filter p).length) : Nat.nth p t = ((List.range n).filter p).getD t 0 := by
  induction n with
  | zero => simp at h
  | succ n ih =>
    have hcount : ((List.range n).filter p).length = Nat.count p n := List.countP_eq_length_filter.symm
    rw [List.range_succ, List.filter_append] at h ⊢
    rcases Nat.lt_or_ge t ((List.range n).filter p).length with hbefore | hlast
    · rw [ih hbefore, List.getD_append _ _ _ _ hbefore]
    · have hn : p n := by
        by_contra hn
        simp [hn] at h hlast
        omega
      obtain rfl : t = Nat.count p n := by
        simp [hn] at h hlast
        omega
      rw [Nat.nth_count hn, List.getD_append_right _ _ _ _ hlast]
      simp [hn, hcount]

/-- Trial division by the numbers below 18, which evaluates faster than the library's test. -/
def trialPrime (n : Nat) : Bool := decide (2 ≤ n) && (List.range 18).all fun d => d < 2 || n ≤ d || n % d != 0

/-- Below 18 squared trial division decides whether a number is prime. -/
theorem trialPrime_iff {n : Nat} (h : n < 18 * 18) : trialPrime n = true ↔ n.Prime := by
  have hdivisors : trialPrime n = true ↔ 2 ≤ n ∧ ∀ d < 18, 2 ≤ d → d < n → ¬ d ∣ n := by
    simp [trialPrime, Nat.dvd_iff_mod_eq_zero]
    grind
  rw [hdivisors]
  refine ⟨fun ⟨htwo, hsmall⟩ => Nat.prime_def_le_sqrt.2 ⟨htwo, fun d hd hroot => ?_⟩, fun hprime => ?_⟩
  · exact hsmall d (hroot.trans_lt (Nat.sqrt_lt.2 h)) hd (hroot.trans_lt (Nat.sqrt_lt_self htwo))
  · exact ⟨hprime.two_le, fun d _ hd hdn => (Nat.prime_def_lt'.1 hprime).2 d hd hdn⟩

/-- The primes below 312 are those of the list. -/
theorem filter_prime_range : (List.range 312).filter Nat.Prime = firstPrimes := by
  have htrial : (List.range 312).filter trialPrime = firstPrimes := by decide +kernel
  rw [← htrial]
  refine List.filter_congr fun n hn => ?_
  have hsmall : n < 18 * 18 := (List.mem_range.1 hn).trans (by decide)
  simp [← trialPrime_iff hsmall]

/-- The list holds the primes in order, from the first on. -/
theorem nth_prime_eq_firstPrimes {t : Nat} (h : t < 64) : Nat.nth Nat.Prime t = firstPrimes.getD t 0 := by
  rw [nth_eq_getD_filter_range (n := 312) (by rwa [filter_prime_range]), filter_prime_range]

/-- K[t] and the whole part of the cube root of the (t+1)-th prime, which is at most 6, stand between the root's neighbours
(spec/40_sha256.md R83). -/
theorem roundConstants_cubeRoots : ∀ t < 64, ∃ whole < 7,
    (whole * 2 ^ 32 + (roundConstants.getD t 0).toNat) ^ 3 ≤ firstPrimes.getD t 0 * 2 ^ 96 ∧
    firstPrimes.getD t 0 * 2 ^ 96 < (whole * 2 ^ 32 + (roundConstants.getD t 0).toNat + 1) ^ 3 := by
  decide +kernel

/-- IV[i] and the whole part of the square root of the (i+1)-th prime, which is at most 4 (spec/40_sha256.md R84). -/
theorem initialVector_squareRoots : ∀ i : Index, ∃ whole < 5,
    (whole * 2 ^ 32 + (wordAt initialVector i).toNat) ^ 2 ≤ firstPrimes.getD i.toNat 0 * 2 ^ 64 ∧
    firstPrimes.getD i.toNat 0 * 2 ^ 64 < (whole * 2 ^ 32 + (wordAt initialVector i).toNat + 1) ^ 2 := by
  decide +kernel

/-- Settles O43: the roots of the listed primes, which are the first 64. -/
theorem tablesAreRootsOfPrimes : Obligations.TablesAreRootsOfPrimes := by
  refine ⟨roundConstants_length, fun t ht => ?_, fun i => ?_⟩
  · obtain ⟨whole, -, hroot⟩ := roundConstants_cubeRoots t ht
    rw [nth_prime_eq_firstPrimes ht]
    exact ⟨whole, hroot⟩
  · obtain ⟨whole, -, hroot⟩ := initialVector_squareRoots i
    rw [nth_prime_eq_firstPrimes (i.isLt.trans (by decide))]
    exact ⟨whole, hroot⟩

end Sys2Proof.Machine

/-! Data writes of a message and SHA_FINAL, each from one state. -/

namespace Sys2Proof.Machine

open Sys2Proof.Safety

/-! ### Bytes absorbed by one data write -/

/-- L advances by the bits absorbed (spec/40_sha256.md R95). -/
theorem absorbBytes_mlen (bytes : List Byte) (s : State) :
    (absorbBytes bytes s).mlen = s.mlen + BitVec.ofNat 64 (8 * bytes.length) := by
  induction bytes generalizing s with
  | nil => simp
  | cons b bytes ih =>
    rw [absorbBytes_cons, ih, absorbByte_mlen, List.length_cons, Nat.mul_succ, Nat.add_comm (8 * _), BitVec.ofNat_add,
      ← BitVec.add_assoc]
    rfl

/-- Bytes that do not fill the block follow those held, and neither H nor BUSY changes (spec/40_sha256.md R95, R107). -/
theorem absorbBytes_of_room {bytes : List Byte} {s : State} (h : s.blen.toNat + bytes.length < 64) :
    (absorbBytes bytes s).held = s.held ++ bytes ∧ (absorbBytes bytes s).hash = s.hash ∧
    (absorbBytes bytes s).busy = s.busy := by
  induction bytes generalizing s with
  | nil => simp
  | cons b bytes ih =>
    have hroom : s.blen ≠ 63 := by
      intro hfull
      simp [hfull] at h
      omega
    have hheld := held_absorbByte_of_room hroom b
    have hblen : (absorbByte b s).blen.toNat = s.blen.toNat + 1 := by
      rw [← held_length, hheld, List.length_append, held_length, List.length_singleton]
    obtain ⟨hheld', hhash', hbusy'⟩ := ih (s := absorbByte b s) (by simp at h; omega)
    refine ⟨?_, hhash'.trans (hash_absorbByte_of_room hroom b), hbusy'.trans ?_⟩
    · rw [absorbBytes_cons, hheld', hheld, List.append_assoc, List.singleton_append]
    · rw [absorbByte_of_room hroom]

/-- Bytes that fill the block exactly have it compressed and leave none held (spec/40_sha256.md R95, R107). -/
theorem absorbBytes_of_fill {bytes : List Byte} {s : State} (h : s.blen.toNat + bytes.length = 64) :
    (absorbBytes bytes s).held = [] ∧ (absorbBytes bytes s).hash = compress s.hash (s.held ++ bytes) ∧
    (absorbBytes bytes s).busy = true := by
  have hlt := s.blen.isLt
  obtain rfl | ⟨init, b, rfl⟩ := bytes.eq_nil_or_concat
  · simp at h
    omega
  · have hinit : s.blen.toNat + init.length = 63 := by simpa [← Nat.add_assoc] using h
    obtain ⟨hheld, hhash, -⟩ := absorbBytes_of_room (bytes := init) (s := s) (by omega)
    have hfull : (absorbBytes init s).blen = 63 := by
      apply BitVec.eq_of_toNat_eq
      rw [← held_length, hheld, List.length_append, held_length, hinit]
      rfl
    rw [List.concat_eq_append, absorbBytes_append, absorbBytes_cons, absorbBytes_nil]
    refine ⟨held_absorbByte_of_full hfull b, ?_, ?_⟩
    · rw [hash_absorbByte_of_full hfull, hhash, hheld, List.append_assoc]
    · rw [absorbByte_of_full hfull]

/-- Bytes that fill the block and fewer than 64 more: the full block is compressed at once, in the middle of the bytes, and
the others start the next one (spec/40_sha256.md R95, R107). -/
theorem absorbBytes_of_overflow {bytes : List Byte} {s : State} (hfill : 64 ≤ s.blen.toNat + bytes.length)
    (hrest : s.blen.toNat + bytes.length < 128) :
    (absorbBytes bytes s).held = (s.held ++ bytes).drop 64 ∧
    (absorbBytes bytes s).hash = compress s.hash ((s.held ++ bytes).take 64) ∧ (absorbBytes bytes s).busy = true := by
  obtain ⟨xs, ys, rfl, hxs⟩ : ∃ xs ys, bytes = xs ++ ys ∧ s.blen.toNat + xs.length = 64 := by
    have hlt := s.blen.isLt
    refine ⟨bytes.take (64 - s.blen.toNat), bytes.drop (64 - s.blen.toNat), (List.take_append_drop ..).symm, ?_⟩
    rw [List.length_take]
    omega
  obtain ⟨hheld, hhash, hbusy⟩ := absorbBytes_of_fill hxs
  have hnone : (absorbBytes xs s).blen.toNat = 0 := by rw [← held_length, hheld, List.length_nil]
  obtain ⟨hheld', hhash', hbusy'⟩ := absorbBytes_of_room (bytes := ys) (s := absorbBytes xs s) (by simp at hrest; omega)
  have hblock : (s.held ++ xs).length = 64 := by rw [List.length_append, held_length, hxs]
  rw [absorbBytes_append, ← List.append_assoc, List.take_left' hblock, List.drop_left' hblock]
  exact ⟨by rw [hheld', hheld, List.nil_append], hhash'.trans hhash, hbusy'.trans hbusy⟩

/-- A data write in MODE = SHA, by its row of the access map, absorbs the first bytes of its word (spec/40_sha256.md R96). -/
theorem exec_wrDin_sha {w : Word} {n : Nat} {i : Instr} {s : State}
    (hrow : (n, i) ∈ [(1, Instr.wrDin1 w), (2, .wrDin2 w), (3, .wrDin3 w), (4, .wrDin4 w)]) (hm : s.mode = .sha) :
    exec i s = .next (absorbBytes (streamBytes n w) s) ∧ n ≤ 4 := by
  simp only [List.mem_cons, Prod.mk.injEq, List.not_mem_nil, or_false] at hrow
  obtain ⟨rfl, rfl⟩ | ⟨rfl, rfl⟩ | ⟨rfl, rfl⟩ | ⟨rfl, rfl⟩ := hrow <;>
    exact ⟨exec_dataWrite_sha (by simp [byteCount]) hm, by decide⟩

/-- Settles O28: the bytes do not fill the block. -/
theorem dataWriteAbsorbsIntoTheBlock : Obligations.DataWriteAbsorbsIntoTheBlock := by
  intro w n i s hrow hm hroom
  obtain ⟨hexec, -⟩ := exec_wrDin_sha hrow hm
  obtain ⟨hheld, hhash, hbusy⟩ := absorbBytes_of_room (bytes := streamBytes n w) (by rwa [streamBytes_length])
  refine ⟨_, hexec, hheld, ?_, ?_, ?_⟩
  · rw [← held_length, hheld, List.length_append, held_length, streamBytes_length]
  · rw [absorbBytes_mlen, streamBytes_length]
  · rw [absorbBytes_frame, hhash, hbusy]

/-- Settles O29: the bytes fill the block, and up to three start the next one. -/
theorem dataWriteCompressesAFullBlock : Obligations.DataWriteCompressesAFullBlock := by
  intro w n i s hrow hm hfill
  have hlt := s.blen.isLt
  obtain ⟨hexec, hn⟩ := exec_wrDin_sha hrow hm
  obtain ⟨hheld, hhash, hbusy⟩ := absorbBytes_of_overflow (bytes := streamBytes n w) (s := s)
    (by rwa [streamBytes_length]) (by rw [streamBytes_length]; omega)
  refine ⟨_, hexec, hhash, hheld, ?_, ?_, hbusy, ?_⟩
  · rw [← held_length, hheld, List.length_drop, List.length_append, held_length, streamBytes_length]
  · rw [absorbBytes_mlen, streamBytes_length]
  · rw [absorbBytes_frame]

/-! ### SHA_FINAL -/

/-- A final chunk of up to 55 bytes is one block (spec/40_sha256.md R98, R99). -/
theorem finalHash_short {s : State} (h : s.blen.toNat ≤ 55) :
    finalHash s = compress s.hash (s.held ++ [0x80] ++ List.replicate (55 - s.blen.toNat) 0 ++ be64 s.mlen) := by
  have hpad := pad_short (m := s.held) (by rwa [held_length]) s.mlen
  rw [held_length] at hpad
  have hlen : (pad s.held s.mlen).length = 64 := by
    rw [hpad]
    simp
    omega
  rw [finalHash, hlen, compressBlocks_succ, compressBlocks_zero, List.take_of_length_le hlen.le, hpad]

/-- A final chunk of 56 bytes or more is two blocks, the length in the second (spec/40_sha256.md R98, R99). -/
theorem finalHash_long {s : State} (h : 56 ≤ s.blen.toNat) :
    finalHash s = compress (compress s.hash (s.held ++ [0x80] ++ List.replicate (63 - s.blen.toNat) 0))
      (List.replicate 56 0 ++ be64 s.mlen) := by
  have hlt := s.blen.isLt
  have hpad := pad_long (m := s.held) (by rwa [held_length]) s.mlen
  rw [held_length, List.append_assoc _ (List.replicate 56 0)] at hpad
  have hfirst : (s.held ++ [0x80] ++ List.replicate (63 - s.blen.toNat) 0).length = 64 := by
    simp
    omega
  have hsecond : (List.replicate 56 (0 : Byte) ++ be64 s.mlen).length = 64 := by simp
  have hlen : (pad s.held s.mlen).length = 128 := by rw [hpad, List.length_append, hfirst, hsecond]
  rw [finalHash, hlen, hpad, compressBlocks_succ, compressBlocks_succ, compressBlocks_zero, List.take_left' hfirst,
    List.drop_left' hfirst, List.take_of_length_le hsecond.le]

/-- Settles O22: outside MODE = SHA the error, and in it the one block or the two of the final chunk. -/
theorem shaFinalPublishesTheDigest : Obligations.ShaFinalPublishesTheDigest := by
  intro s
  refine ⟨fun hm => ?_, reservedBitsRefused 2 s, fun hm => ⟨Config.unspecifiedBlock s.draws, s.draws + 1, ?_⟩⟩
  · rcases execShaFinal_cases s with ⟨hsha, -⟩ | ⟨-, hs⟩
    · exact absurd hsha hm
    · exact hs
  · rcases execShaFinal_cases s with ⟨-, hs⟩ | ⟨hother, -⟩
    · rcases Nat.lt_or_ge s.blen.toNat 56 with hshort | hlong
      · rw [finalHash_short (by omega)] at hs
        simp only [if_pos (Nat.le_of_lt_succ hshort)]
        exact hs
      · rw [finalHash_long hlong] at hs
        simp only [if_neg (Nat.not_le_of_lt hlong)]
        exact hs
    · exact absurd hm hother

end Sys2Proof.Machine

/-! The keystream cypher from one state: data writes, the DOUT read, CY_START, KEY_LOAD and the KEYj writes. -/

namespace Sys2Proof.Machine

open Sys2Proof.Safety

/-! ### Data writes -/

/-- A data write outside a message and outside a stream raises ERR_SEQ (spec/30_encoding.md R78). -/
theorem dataWrite_of_ended {s : State} (hm : s.mode = .idle ∨ s.mode = .cyEnd) (n : Nat) (w : Word) :
    dataWrite n w s = s.raise .seq := by
  rcases hm with hm | hm <;> simp [dataWrite, hm]

/-- A data write, by its row of the access map, takes up to four bytes of its word, and its mask is MASK(n)
(spec/30_encoding.md R71, R78, spec/41_cypher.md R119). -/
theorem exec_wrDin {w m : Word} {n : Nat} {i : Instr}
    (hrow : (n, i, m) ∈ [(1, Instr.wrDin1 w, 0xFF000000#32), (2, .wrDin2 w, 0xFFFF0000#32), (3, .wrDin3 w, 0xFFFFFF00#32),
      (4, .wrDin4 w, 0xFFFFFFFF#32)]) (s : State) :
    exec i s = .next (dataWrite n w s) ∧ n ≤ 4 ∧ mask n = m := by
  obtain ⟨h1, h2, h3, h4⟩ := mask_values
  simp only [List.mem_cons, Prod.mk.injEq, List.not_mem_nil, or_false] at hrow
  obtain ⟨rfl, rfl, rfl⟩ | ⟨rfl, rfl, rfl⟩ | ⟨rfl, rfl, rfl⟩ | ⟨rfl, rfl, rfl⟩ := hrow
  · exact ⟨rfl, by decide, h1⟩
  · exact ⟨rfl, by decide, h2⟩
  · exact ⟨rfl, by decide, h3⟩
  · exact ⟨rfl, by decide, h4⟩

/-- DOUT_LEN holds the byte count of a data write (spec/41_cypher.md R120). -/
theorem cyXor_doutLen_toNat {n : Nat} (hn : n ≤ 4) (w : Word) (s : State) : (cyXor n w s).doutLen.toNat = n := by
  rw [cyXor_doutLen, BitVec.toNat_ofNat]
  omega

/-- CYCNT counts the bytes of a stream modulo 2^64 (spec/41_cypher.md R120). -/
theorem cyXor_cycnt_toNat (n : Nat) (w : Word) (s : State) :
    (cyXor n w s).cycnt.toNat = (s.cycnt.toNat + n) % 2 ^ 64 := by
  simp

/-- A full word moves KIDX to the next key word, the last wrapping to the first (spec/41_cypher.md R120). -/
theorem cyXor_kidx_toNat (n : Nat) (w : Word) (s : State) :
    (cyXor n w s).kidx.toNat = if n = 4 then (s.kidx.toNat + 1) % 8 else s.kidx.toNat := by
  rw [cyXor_kidx, apply_ite BitVec.toNat]
  simp [BitVec.toNat_add]

/-- Settles O30: outside a stream the error, and in it the XOR of one word, field by field. -/
theorem dataWriteXorsWithTheKeystream : Obligations.DataWriteXorsWithTheKeystream := by
  intro w m n i s hrow
  obtain ⟨hexec, hn, hmask⟩ := exec_wrDin hrow s
  refine ⟨fun hm => ?_, fun hm => ⟨cyXor n w s, ?_, ?_, cyXor_doutLen_toNat hn w s, rfl, rfl, cyXor_cycnt_toNat n w s,
    cyXor_kidx_toNat n w s, ?_, rfl⟩⟩
  · rw [hexec, dataWrite_of_ended hm]
    rfl
  · rw [hexec, dataWrite, hm]
  · rw [← hmask]
    rfl
  · rw [cyXor_mode, hm]

/-! ### The DOUT read -/

/-- A WRITE outside the access map raises ERR_BUS, whatever the word (spec/30_encoding.md R75). -/
theorem perform_busWrite_unmapped {off : Offset} {w : Word} (h : (busWrite off w).mapped = false) (s : State) :
    perform (busWrite off w) s = .next (s.raise .bus) := by
  have hill : (busWrite off w).wellFormed = false := by simp [Access.wellFormed, h]
  obtain ⟨r, hr, herr⟩ := decode_reject_of_illFormed hill
  have hbus : r.err = .bus := by simpa [h] using herr
  rw [perform_reject hr, hbus]
  rfl

/-- Settles O18: a DOUT read by its definition, and DOUT has no WRITE row in the access map (spec/20_memory.md R52). -/
theorem doutReadClearsDoutValid : Obligations.DoutReadClearsDoutValid :=
  fun s => ⟨rfl, fun _ => perform_busWrite_unmapped (by simp [Access.mapped, Access.code, busWrite, accessMap]) s⟩

/-! ### Commands and key writes -/

/-- Settles O23: KEY_LOAD by DVALID. -/
theorem keyLoadCopiesAValidDigest : Obligations.KeyLoadCopiesAValidDigest := by
  intro s
  rcases execKeyLoad_cases s with ⟨hd, hs⟩ | ⟨hd, hs⟩
  · exact ⟨fun _ => hs, fun hd' => by simp [hd] at hd', reservedBitsRefused 3 s⟩
  · exact ⟨fun hd' => by simp [hd] at hd', fun _ => hs, reservedBitsRefused 3 s⟩

/-- Settles O24: CY_START by its definition, in every MODE. -/
theorem cyStartBeginsAtOffsetZero : Obligations.CyStartBeginsAtOffsetZero :=
  fun s => ⟨rfl, reservedBitsRefused 4 s⟩

/-- Settles O25: the word written is read back, and the other key words are those of before. -/
theorem keyWriteStoresOneWord : Obligations.KeyWriteStoresOneWord :=
  fun j w s => ⟨{ s with key := setWordAt s.key j w }, rfl, wordAt_setWordAt_self s.key j w,
    fun _ hk => wordAt_setWordAt_ne s.key hk w, rfl⟩

end Sys2Proof.Machine

/-! Control and readout: the register reads, NOP, ABORT and CLR_ERR, with the steps that clear OVR. -/

namespace Sys2Proof.Machine

open Sys2Proof.Safety

/-! ### The steps that clear ERR or OVR -/

/-- OVR is in the rows of CLR_ERR and of the data writes in MODE = CY. -/
theorem ovr_mem_writeSet {i : Instr} {m : Mode} (h : .ovr ∈ writeSet i m) :
    i = .clrErr ∨ (0 < byteCount i ∧ m = .cy) := by
  cases i <;> cases m <;> simp [writeSet, dataWriteSet, byteCount] at h ⊢

/-- OVR is sticky: a step that clears it is CLR_ERR or the reset, since a data write keeps an overrun already recorded
(spec/10_state.md R36, spec/41_cypher.md R123). -/
theorem step_clears_ovr {s t : State} (h : step s = .next t) (hset : s.ovr = true) (hclear : t.ovr = false) :
    performs s = some .clrErr ∨ resetNext s = true := by
  have hne : t.ovr ≠ s.ovr := by simp [hset, hclear]
  rcases step_changes_element (x := .ovr) h hne with hreset | ⟨hx, -⟩ | ⟨hx, -⟩ | ⟨i, hi, hrow⟩
  · exact .inr hreset
  · cases hx
  · cases hx
  · obtain rfl | ⟨hdata, hm⟩ := ovr_mem_writeSet hrow
    · exact .inl hi
    · obtain ⟨q, n, hstep⟩ := step_of_performs hi
      rw [exec_dataWrite_cy (s := { s with queue := q, draws := n }) hdata hm] at hstep
      cases hstep.symm.trans h
      simp [hset] at hclear

/-- A step that clears ERR is CLR_ERR or the reset (spec/10_state.md R37). -/
theorem step_clears_err {s t : State} (h : step s = .next t) (hset : s.err ≠ .none) (hclear : t.err = .none) :
    performs s = some .clrErr ∨ resetNext s = true := by
  have hne : t.err ≠ s.err := fun hsame => hset (hsame.symm.trans hclear)
  rcases errKeepsTheFirstError s t h hne with ⟨hnone, -⟩ | ⟨-, hcause⟩
  · exact absurd hnone hset
  · exact hcause

/-- Settles O20: CLR_ERR by its definition, and over a step ERR and OVR each by its write sets. -/
theorem clrErrAloneClearsErrAndOvr : Obligations.ClrErrAloneClearsErrAndOvr := by
  intro s
  refine ⟨rfl, reservedBitsRefused 6 s, fun t h hcleared => ?_⟩
  rcases hcleared with ⟨hset, hclear⟩ | ⟨hset, hclear⟩
  · exact step_clears_err h hset hclear
  · exact step_clears_ovr h hset hclear

/-! ### Register reads, NOP and ABORT -/

theorem lowHalf_eq_setWidth (c : Count) : lowHalf c = c.setWidth 32 :=
  (BitVec.setWidth_eq_extractLsb' (by decide)).symm

theorem highHalf_eq_setWidth (c : Count) : highHalf c = (c >>> 32).setWidth 32 := rfl

/-- Settles O16: each read returns its element, and the two reads of a counter its halves. -/
theorem registerReadsReturnTheirElement : Obligations.RegisterReadsReturnTheirElement := by
  intro s j
  rw [← lowHalf_eq_setWidth s.cycnt, ← lowHalf_eq_setWidth s.mlen, ← highHalf_eq_setWidth s.cycnt,
    ← highHalf_eq_setWidth s.mlen]
  exact ⟨rfl, rfl, rfl, rfl, rfl, rfl, rfl⟩

/-- Settles O19: NOP and ABORT by their definitions, in every MODE. -/
theorem nopAndAbortCompleteInEveryMode : Obligations.NopAndAbortCompleteInEveryMode :=
  fun s => ⟨rfl, rfl, reservedBitsRefused 0 s, reservedBitsRefused 5 s⟩

end Sys2Proof.Machine

/-! The end state of CY_APPLY: a data write with its DOUT read moves the block along the stream, and the place it has reached
is all that the position fields hold. -/

namespace Sys2Proof.Machine

open Sys2Proof.Safety

/-- The block stands at byte place `p` of a stream, with no DOUT unread (spec/42_control.md R141). -/
structure AtPlace (p : Nat) (s : State) : Prop where
  cycnt     : s.cycnt = BitVec.ofNat 64 p
  kidx      : s.kidx = BitVec.ofNat 3 (p / 4)
  mode      : s.mode = if p % 4 ≠ 0 then .cyEnd else .cy
  doutValid : s.doutValid = false
  doutLen   : s.doutLen.toNat = if p = 0 then 0 else if p % 4 = 0 then 4 else p % 4

/-- From `s` to `t` nothing changes but the row of CY_START in spec/10_state.md R43 and the words returned. -/
def StreamFrame (s t : State) : Prop :=
  t = { s with
    mode := t.mode, kidx := t.kidx, cycnt := t.cycnt, dout := t.dout, doutLen := t.doutLen, doutValid := t.doutValid,
    blen := t.blen, replies := t.replies }

theorem StreamFrame.trans {s t u : State} (hst : StreamFrame s t) (htu : StreamFrame t u) : StreamFrame s u := by
  unfold StreamFrame at htu
  rw [hst] at htu
  exact htu

/-- CY_START stands at the start of a stream, in every MODE (spec/41_cypher.md R118). -/
theorem exec_cyStart_atPlace (s : State) : ∃ t, exec .cyStart s = .next t ∧ AtPlace 0 t ∧ StreamFrame s t :=
  ⟨_, rfl, ⟨rfl, rfl, rfl, rfl, rfl⟩, rfl⟩

/-- At a word boundary the stream goes on (spec/41_cypher.md R124). -/
theorem AtPlace.mode_of_boundary {m : Nat} {s : State} (h : AtPlace (4 * m) s) : s.mode = .cy := by
  simp [h.mode]

/-- A data write and its DOUT read move the block along by the bytes written (spec/41_cypher.md R120, R122). -/
theorem AtPlace.wordRead {i : Instr} {m : Nat} {s : State} (h : AtPlace (4 * m) s) (hi : 0 < byteCount i) :
    AtPlace (4 * m + byteCount i) (cyWordRead i s) := by
  have hle := byteCount_le_four i
  constructor
  case cycnt => rw [cyWordRead_cycnt, h.cycnt, ← BitVec.ofNat_add]
  case kidx =>
    rw [cyWordRead_kidx, h.kidx, Nat.mul_div_cancel_left m (by decide)]
    split_ifs with hfull
    · have hplace : (4 * m + byteCount i) / 4 = m + 1 := by omega
      rw [hplace, BitVec.ofNat_add]
      rfl
    · have hplace : (4 * m + byteCount i) / 4 = m := by omega
      rw [hplace]
  case mode =>
    have hfull : byteCount i = 4 ↔ ¬(4 * m + byteCount i) % 4 ≠ 0 := by omega
    simp only [cyWordRead_mode, h.mode_of_boundary, hfull, ite_not]
  case doutValid => rfl
  case doutLen =>
    have hlen : (cyWordRead i s).doutLen.toNat = byteCount i := cyXor_doutLen_toNat hle (dataWord i) s
    rw [hlen]
    split_ifs <;> omega

/-- A data write with no result unread, and its DOUT read, keep OVR (spec/41_cypher.md R123). -/
theorem streamFrame_cyWordRead {s : State} (h : s.doutValid = false) (i : Instr) : StreamFrame s (cyWordRead i s) := by
  have hovr : (cyWordRead i s).ovr = s.ovr := by simp [cyWordRead, h]
  rw [StreamFrame, ← hovr]
  rfl

/-- The operations `is` take the block from `s` to byte place `p` of a stream, and change nothing else. -/
def RunsToPlace (is : List Instr) (p : Nat) (s : State) : Prop :=
  ∃ t, performAll (is.map encode) s = .next t ∧ AtPlace p t ∧ StreamFrame s t

theorem AtPlace.runsToPlace_nil {p : Nat} {s : State} (h : AtPlace p s) : RunsToPlace [] p s :=
  ⟨s, rfl, h, rfl⟩

/-- The loop of CY_APPLY one data write longer (spec/30_encoding.md R82). -/
theorem AtPlace.runsToPlace_cons {i : Instr} {m : Nat} {bytes rest : List Byte} {s : State} (h : AtPlace (4 * m) s)
    (hi : 0 < byteCount i) (hops : bytesOps bytes = i :: bytesOps rest) (hlen : bytes.length = byteCount i + rest.length)
    (hrest : RunsToPlace (streamOps rest) (4 * m + byteCount i + rest.length) (cyWordRead i s)) :
    RunsToPlace (streamOps bytes) (4 * m + bytes.length) s := by
  obtain ⟨t, hrun, hplace, hframe⟩ := hrest
  have hstreamOps : streamOps bytes = i :: .rdDout :: streamOps rest := by simp [streamOps, hops]
  refine ⟨t, ?_, ?_, (streamFrame_cyWordRead h.doutValid i).trans hframe⟩
  · rw [hstreamOps, performAll_cyWord hi h.mode_of_boundary, hrun]
  · rwa [hlen, ← Nat.add_assoc]

/-- The loop of CY_APPLY, from any word boundary, moves the block along by the length of the bytes: full words reach the next
boundary, and a short one ends the stream (spec/30_encoding.md R80, R82). -/
theorem AtPlace.runsToPlace_streamOps {m : Nat} {s : State} (h : AtPlace (4 * m) s) (bytes : List Byte) :
    RunsToPlace (streamOps bytes) (4 * m + bytes.length) s := by
  induction bytes using bytesOps.induct generalizing m s with
  | case1 b0 b1 b2 b3 rest ih =>
    have hnext : AtPlace (4 * (m + 1)) (cyWordRead (.wrDin4 (b0 ++ b1 ++ b2 ++ b3)) s) :=
      h.wordRead (i := .wrDin4 (b0 ++ b1 ++ b2 ++ b3)) (by simp [byteCount])
    exact h.runsToPlace_cons (by simp [byteCount]) rfl (Nat.add_comm rest.length 4) (ih hnext)
  | case2 | case3 | case4 =>
    exact h.runsToPlace_cons (rest := []) (by simp [byteCount]) rfl rfl
      (h.wordRead (by simp [byteCount])).runsToPlace_nil
  | case5 => exact h.runsToPlace_nil

/-- CY_APPLY(S) from any state stands at the place that the length of `S` gives (spec/42_control.md R141). -/
theorem runsToPlace_cyApplyOps (bytes : List Byte) (s : State) : RunsToPlace (cyApplyOps bytes) bytes.length s := by
  obtain ⟨start, hstart, hzero, hstartFrame⟩ := exec_cyStart_atPlace s
  obtain ⟨u, hrun, hplace, hframe⟩ := AtPlace.runsToPlace_streamOps (m := 0) hzero bytes
  rw [Nat.mul_zero, Nat.zero_add] at hplace
  have hprogram : cyApplyOps bytes = .cyStart :: (streamOps bytes ++ [.rdCycntLo, .rdCycntHi]) := rfl
  refine ⟨(u.reply (lowHalf u.cycnt)).reply (highHalf u.cycnt), ?_, { hplace with }, (hstartFrame.trans hframe).trans rfl⟩
  rw [hprogram, performAll_encode_cons hstart, List.map_append, performAll_append hrun]
  rfl

/-- Settles O52: the position fields are those of the place that CY_APPLY reaches, and the rest is outside its frame. -/
theorem cyApplyLeavesTheStreamPosition : Obligations.CyApplyLeavesTheStreamPosition := by
  intro bytes s
  obtain ⟨t, hrun, hplace, hframe⟩ := runsToPlace_cyApplyOps bytes s
  have hkidx : t.kidx.toNat = bytes.length / 4 % 8 := by rw [hplace.kidx, BitVec.toNat_ofNat]
  refine ⟨t, hrun, hplace.cycnt, hkidx, hplace.mode, hplace.doutValid, hplace.doutLen, ?_⟩
  rw [hframe]
  exact ⟨rfl, rfl, rfl, rfl, rfl, rfl⟩

end Sys2Proof.Machine

/-! Exceptions: no step and no run stops, and an access that raises an error leaves what a suppressed access leaves. -/

namespace Sys2Proof.Machine

open Sys2Proof.Safety

/-! ### Every step answers -/

/-- An access completes, or completes with an error (spec/60_exceptions.md R161). -/
theorem perform_next (a : Access) (s : State) : ∃ t, perform a s = .next t := by
  cases hd : decode a with
  | op i => exact (exec_next i s).imp fun _ h => (perform_op hd s).trans h
  | reject r => exact ⟨_, perform_reject hd s⟩

/-- No step is a fault or a refusal (spec/60_exceptions.md R161). -/
theorem step_next (s : State) : ∃ t, step s = .next t := by
  rcases step_cases (rfl : step s = step s) with ⟨t, -, ht⟩ | ⟨a, u, -, hperform⟩
  · exact ⟨t, ht⟩
  · exact (perform_next a u).imp fun _ h => hperform.symm.trans h

/-- Settles O7, by induction on the number of steps: the first answers, and the run goes on from there. -/
theorem noRunEverStops : Obligations.NoRunEverStops := by
  intro k
  induction k with
  | zero => exact fun s => ⟨s, rfl⟩
  | succ k ih =>
    intro s
    obtain ⟨u, hstep⟩ := step_next s
    exact (ih u).imp fun _ hrun => (run_succ hstep k).trans hrun

/-! ### What an error changes -/

/-- A rejected access raises one of the codes of spec/60_exceptions.md R143 other than 0. -/
theorem reject_err_ne_none (r : Reject) : r.err ≠ .none := by
  cases r <;> decide

/-- A suppressed access changes the record of errors, and a READ returns 0 (spec/60_exceptions.md R146). -/
theorem suppress_eq_record (d : Dir) (e : Err) (s : State) : s.suppress d e = { s with
    err := if s.err = .none then e else s.err, raised := s.raised + 1,
    replies := if d = .read then 0 :: s.replies else s.replies } := by
  cases d <;> rfl

/-- An access has the direction of the operation it decodes to (spec/30_encoding.md R68). -/
theorem dir_eq_of_decode_op {a : Access} {i : Instr} (h : decode a = .op i) : a.dir = (encode i).dir := by
  have hsame := decodeDeterminesTheAccess a i h
  simp only [Access.sameOperation, Bool.and_eq_true, beq_iff_eq] at hsame
  obtain ⟨⟨⟨-, hdir⟩, -⟩, -⟩ := hsame
  exact hdir

/-- A READ that decodes raises no error in any MODE (spec/30_encoding.md R77). -/
theorem exec_read_noErrorRaised {i : Instr} (hdir : (encode i).dir = .read) {s t : State} (h : exec i s = .next t) :
    NoErrorRaised s t := by
  cases i with
  | rdId | rdStatus | rdDout | rdCycntLo | rdCycntHi | rdMlenLo | rdMlenHi | rdDigest j | rdKey j =>
    cases h
    rfl
  | _ => cases hdir

/-- An operation raises no error, or is a WRITE that raises one and does nothing else: the errors of the mode table are those
of WRITEs (spec/30_encoding.md R77). -/
theorem exec_noErrorRaised_or_suppress (i : Instr) (s : State) : ∃ t, exec i s = .next t ∧
    (NoErrorRaised s t ∨ ∃ e : Err, e ≠ .none ∧ t = s.suppress (encode i).dir e) := by
  obtain ⟨t, hexec, -, -, herror⟩ := modeTableHolds i s
  refine ⟨t, hexec, ?_⟩
  by_cases hquiet : t.raised = s.raised
  · exact .inl hquiet
  · cases hdir : (encode i).dir with
    | read => exact absurd (exec_read_noErrorRaised hdir hexec) hquiet
    | write => exact .inr ⟨if i = .keyLoad then .noDigest else .seq, by split_ifs <;> decide, herror hquiet⟩

/-- Settles O32: an access that decodes runs its operation, any other is rejected, and both leave what a suppressed access
leaves when they raise an error. -/
theorem anErrorChangesOnlyTheRecord : Obligations.AnErrorChangesOnlyTheRecord := by
  intro a s
  simp only [← suppress_eq_record]
  cases hd : decode a with
  | op i =>
    rw [perform_op hd, dir_eq_of_decode_op hd]
    exact exec_noErrorRaised_or_suppress i s
  | reject r => exact ⟨_, perform_reject hd s, .inr ⟨r.err, reject_err_ne_none r, rfl⟩⟩

end Sys2Proof.Machine

/-! Reset and hazards: ABORT with CLR_ERR, KEY_LOAD during a message, and programs that need no software wait. -/

namespace Sys2Proof.Machine

open Sys2Proof.Safety

/-- Settles O54: ABORT and CLR_ERR, each by its definition. -/
theorem abortThenClrErrGivesAKnownState : Obligations.AbortThenClrErrGivesAKnownState := by
  intro s
  have habort : exec .abort s = .next { s with mode := .idle, blen := 0 } := rfl
  exact (performAll_encode_cons habort [.clrErr]).trans rfl

/-! ### DIGEST and DVALID during a message -/

/-- An access that keeps the message keeps DIGEST and DVALID: it is neither SHA_INIT nor SHA_FINAL
(spec/10_state.md R31, R33, spec/40_sha256.md R101). -/
theorem perform_keepsMessage_digest {a : Access} {s t : State} (ha : keepsMessage a = true)
    (h : perform a s = .next t) : t.digest = s.digest ∧ t.dvalid = s.dvalid := by
  cases hd : decode a with
  | op i =>
    rw [perform_op hd] at h
    rcases exec_digest_cases h with hkept | ⟨rfl, -⟩ | ⟨rfl, -⟩
    · exact hkept
    · simp [keepsMessage, hd] at ha
    · simp [keepsMessage, hd] at ha
  | reject r =>
    cases (perform_reject hd s).symm.trans h
    exact ⟨suppress_digest .., suppress_dvalid ..⟩

/-- Accesses that keep the message keep DIGEST and DVALID, one after another. -/
theorem performAll_keepsMessage_digest {as : List Access} (has : ∀ a ∈ as, keepsMessage a = true) (s : State) :
    ∃ t, performAll as s = .next t ∧ t.digest = s.digest ∧ t.dvalid = s.dvalid := by
  induction as generalizing s with
  | nil => exact ⟨s, rfl, rfl, rfl⟩
  | cons a as ih =>
    obtain ⟨hhead, htail⟩ := List.forall_mem_cons.1 has
    obtain ⟨u, hu⟩ := perform_next a s
    obtain ⟨hdigest, hdvalid⟩ := perform_keepsMessage_digest hhead hu
    obtain ⟨t, ht, hdigest', hdvalid'⟩ := ih htail u
    exact ⟨t, (performAll_cons hu as).trans ht, hdigest'.trans hdigest, hdvalid'.trans hdvalid⟩

/-- Settles O50: SHA_INIT clears DVALID and keeps DIGEST, the accesses after it keep both, and KEY_LOAD then finds no valid
digest. -/
theorem keyLoadDuringAMessageRaisesErrNoDigest : Obligations.KeyLoadDuringAMessageRaisesErrNoDigest := by
  intro as s has
  obtain ⟨hinit, -⟩ := shaInitStartsAMessage s
  obtain ⟨t, hrun, hdigest, hdvalid⟩ := performAll_keepsMessage_digest has _
  obtain ⟨-, hnoDigest, -⟩ := keyLoadCopiesAValidDigest t
  exact ⟨t, (performAll_cons ((perform_encode .shaInit s).trans hinit) as).trans hrun, hdvalid, hdigest,
    hnoDigest hdvalid⟩

/-! ### No operation but the STATUS read looks at BUSY, and none at the events to come -/

/-- The state `s` as a run with its holds has it: with another BUSY and other events to come (spec/20_memory.md R59). -/
def State.withHold (b : Bool) (q : List Event) (s : State) : State := { s with busy := b, queue := q }

section withHold

variable (b : Bool) (q : List Event) (s : State)

@[simp] theorem State.withHold_mode : (s.withHold b q).mode = s.mode := rfl

/-- A byte absorbed sets BUSY or leaves it, without looking at it (spec/40_sha256.md R95). -/
theorem absorbByte_withHold (x : Byte) : ∃ b', absorbByte x (s.withHold b q) = (absorbByte x s).withHold b' q := by
  by_cases hfull : s.blen = 63
  · rw [absorbByte_of_full hfull, absorbByte_of_full (s := s.withHold b q) hfull]
    exact ⟨true, rfl⟩
  · rw [absorbByte_of_room hfull, absorbByte_of_room (s := s.withHold b q) hfull]
    exact ⟨b, rfl⟩

theorem absorbBytes_withHold (bytes : List Byte) : ∃ b',
    absorbBytes bytes (s.withHold b q) = (absorbBytes bytes s).withHold b' q := by
  induction bytes generalizing b s with
  | nil => exact ⟨b, rfl⟩
  | cons x bytes ih =>
    obtain ⟨bx, hx⟩ := absorbByte_withHold b q s x
    rw [absorbBytes_cons, absorbBytes_cons, hx]
    exact ih bx (absorbByte x s)

/-- A suppressed access leaves BUSY and the events as they are (spec/60_exceptions.md R146). -/
theorem suppress_withHold (d : Dir) (e : Err) : (s.withHold b q).suppress d e = (s.suppress d e).withHold b q := by
  cases d <;> rfl

/-- A data write looks at MODE, and not at BUSY (spec/30_encoding.md R78). -/
theorem dataWrite_withHold (n : Nat) (w : Word) : ∃ b',
    dataWrite n w (s.withHold b q) = (dataWrite n w s).withHold b' q := by
  unfold dataWrite
  rw [State.withHold_mode]
  cases s.mode with
  | sha => exact absorbBytes_withHold b q s (streamBytes n w)
  | cy | idle | cyEnd => exact ⟨b, rfl⟩

end withHold

/-- From `s` the action `f` answers the same whatever BUSY and the waiting events are: BUSY alone can come out otherwise, and
the events are left as they are (spec/20_memory.md R60; notes/assumptions/11.md). -/
def IgnoresHold (f : State → Result) (s : State) : Prop :=
  ∃ t, f s = .next t ∧ ∀ b q, ∃ b', f (s.withHold b q) = .next (t.withHold b' q)

/-- SHA_FINAL looks at MODE, and sets BUSY without looking at it (spec/40_sha256.md R99). -/
theorem ignoresHold_execShaFinal (s : State) : IgnoresHold execShaFinal s := by
  simp only [IgnoresHold, execShaFinal, State.withHold_mode]
  cases s.mode with
  | sha => exact ⟨_, rfl, fun _ _ => ⟨true, rfl⟩⟩
  | idle | cy | cyEnd => exact ⟨_, rfl, fun b _ => ⟨b, rfl⟩⟩

/-- KEY_LOAD looks at DVALID, and not at BUSY (spec/41_cypher.md R116). -/
theorem ignoresHold_execKeyLoad (s : State) : IgnoresHold execKeyLoad s := by
  by_cases hd : s.dvalid = true
  · exact ⟨_, if_pos hd, fun b _ => ⟨b, if_pos hd⟩⟩
  · exact ⟨_, if_neg hd, fun b _ => ⟨b, if_neg hd⟩⟩

/-- No operation but the STATUS read, which returns BUSY, looks at BUSY (spec/20_memory.md R60, spec/10_state.md R38). -/
theorem ignoresHold_exec {i : Instr} (hi : i ≠ .rdStatus) (s : State) : IgnoresHold (exec i) s := by
  cases i with
  | rdStatus => exact absurd rfl hi
  | shaFinal => exact ignoresHold_execShaFinal s
  | keyLoad => exact ignoresHold_execKeyLoad s
  | wrDin1 w | wrDin2 w | wrDin3 w | wrDin4 w =>
    exact ⟨_, rfl, fun b q => (dataWrite_withHold b q s _ w).imp fun _ h => congrArg Host.Outcome.next h⟩
  | _ => exact ⟨_, rfl, fun b _ => ⟨b, rfl⟩⟩

/-- Performing an access that is no STATUS read does not depend on the hold (spec/20_memory.md R60). -/
theorem ignoresHold_perform {a : Access} (ha : decode a ≠ .op .rdStatus) (s : State) : IgnoresHold (perform a) s := by
  cases hd : decode a with
  | op i =>
    have hrun : perform a = exec i := funext (perform_op hd)
    rw [hrun]
    exact ignoresHold_exec (fun hi => ha (hi ▸ hd)) s
  | reject r =>
    refine ⟨_, perform_reject hd s, fun b q => ⟨b, ?_⟩⟩
    rw [perform_reject hd, suppress_withHold]

/-! ### The run with its holds -/

/-- A run takes the next access, after the engine's step if a busy period holds it, and goes on from there
(spec/20_memory.md R59, R61). -/
theorem run_access {s t : State} {a : Access} {rest : List Event} (hq : s.queue = .access a :: rest)
    (ha : decode a ≠ .op .rdStatus) (h : perform a (s.withHold false rest) = .next t) :
    ∃ j, ∀ k, core.run (k + j) s = core.run k t := by
  cases hbusy : s.busy with
  | true =>
    have htaken : step s.endBusy = .next t := (step_of_access (s := s.endBusy) hq rfl).trans h
    refine ⟨2, fun k => ?_⟩
    rw [run_succ (step_of_held_access hbusy hq ha), run_succ htaken]
  | false =>
    have hidle : s.withHold false rest = s.setQueue rest := by
      rw [State.withHold, ← hbusy]
      rfl
    have htaken : step s = .next t := (step_of_access hq hbusy).trans (hidle ▸ h)
    exact ⟨1, run_succ htaken⟩

/-- The run by steps, holds included, keeps up with the accesses performed one after another: the two differ in BUSY and the
events to come alone, and when no event is left the engine's step clears BUSY (spec/70_reset_and_hazards.md R170). -/
theorem run_eq_performAll {as : List Access} (has : ∀ a ∈ as, decode a ≠ .op .rdStatus) (s : State) (b b' : Bool) :
    ∃ k u, performAll as (s.withHold b []) = .next u ∧
      core.run k (s.withHold b' (as.map .access)) = .next u.endBusy := by
  induction as generalizing s b b' with
  | nil => exact ⟨1, s.withHold b [], rfl, run_succ (step_of_queue_nil rfl) 0⟩
  | cons a as ih =>
    obtain ⟨hhead, htail⟩ := List.forall_mem_cons.1 has
    obtain ⟨t, -, ht⟩ := ignoresHold_perform hhead s
    obtain ⟨bstep, hstep⟩ := ht false (as.map .access)
    obtain ⟨ball, hall⟩ := ht b []
    obtain ⟨j, hrun⟩ := run_access (s := s.withHold b' ((a :: as).map .access)) rfl hhead hstep
    obtain ⟨k, u, hu, hend⟩ := ih htail t ball bstep
    exact ⟨k + j, u, (performAll_cons hall as).trans hu, (hrun k).trans hend⟩

/-- Settles O9: the state as it is has its own BUSY and the accesses as its events to come, and the run from it keeps up with
the accesses performed. -/
theorem busyPeriodsNeedNoSoftwareWait : Obligations.BusyPeriodsNeedNoSoftwareWait := by
  intro as s hq has
  have hself : s.withHold s.busy (as.map .access) = s := by rw [State.withHold, ← hq]
  have h := run_eq_performAll has s s.busy s.busy
  rwa [hself] at h

end Sys2Proof.Machine
